-- ==== Sys2Proof/Word.lean ====
section
/-! DEFINITION. Words of the formats of chapter 11, the four-fold collections of a station, and the index types. -/

namespace Sys2Proof

/-- One byte of a frame, an order, a reply or the image. -/
abbrev Byte := BitVec 8

/-- A 16-bit field. -/
abbrev W16 := BitVec 16

/-- A 32-bit field. -/
abbrev W32 := BitVec 32

/-- A logical socket 0..3 (00_scope.md 4.2). -/
abbrev Socket := Fin 4

/-- A physical position A..D, numbered 0..3 as its pins are (R111). -/
abbrev Position := Fin 4

/-- A channel id 0..3 (R134). -/
abbrev Channel := Fin 4

/-- A node number 0..31 (R180). -/
abbrev Node := Fin 32

/-- Four like things, one per socket, position or channel. -/
structure Quad (α : Type) where
  s0 : α
  s1 : α
  s2 : α
  s3 : α
  deriving DecidableEq, Repr

namespace Quad

variable {α β : Type}

def get (q : Quad α) : Fin 4 → α
  | 0 => q.s0
  | 1 => q.s1
  | 2 => q.s2
  | 3 => q.s3

def set (q : Quad α) (i : Fin 4) (x : α) : Quad α :=
  match i with
  | 0 => { q with s0 := x }
  | 1 => { q with s1 := x }
  | 2 => { q with s2 := x }
  | 3 => { q with s3 := x }

/-- Four copies of one value. -/
def all4 (x : α) : Quad α := ⟨x, x, x, x⟩

/-- The four values of a function of the index. -/
def tabulate (f : Fin 4 → α) : Quad α := ⟨f 0, f 1, f 2, f 3⟩

def map (f : α → β) (q : Quad α) : Quad β := ⟨f q.s0, f q.s1, f q.s2, f q.s3⟩

def toList (q : Quad α) : List α := [q.s0, q.s1, q.s2, q.s3]

end Quad

end Sys2Proof
end

