-- ==== Sys2Proof/Syntax.lean ====
section
/-! DEFINITION. The commands of the block: one constructor per row of spec/opcode_table.json, in the table's order. -/

namespace Sys2Proof

/-- The two supervision timers of a socket (R125). As the operand of SUPERVISION_TIMER_RISE it names the highest level
the sense stands above: Vcut (`overburden`) or Vopen (`openCircuit`), which is also above Vcut. -/
inductive SupTimer where
  | overburden
  | openCircuit
  deriving DecidableEq, Repr

/-- The five burst kinds of R156. -/
inductive BurstKind where
  | probe
  | preset
  | adjust
  | verify
  | seal
  deriving DecidableEq, Repr

/-- The two framing violations of R38. -/
inductive Violation where
  /-- A frame-start pattern outside the FRAME phase. -/
  | strayStart
  /-- A byte start in the gap after the frame's last declared byte. -/
  | overrun
  deriving DecidableEq, Repr

/-- A byte on a meter port's receive line: `none` is a byte with a framing fault (R149). -/
abbrev RxByte := Option Byte

/-- The commands. Operands are what the outside supplies with the event. A socket is the logical socket whose timer or
report the row speaks of; a position is the physical position on whose lines the event happens (R111). -/
inductive Instr where
  | powerOnReset
  /-- The strap pins as a number (NODE[4] the most significant bit, R180), and the levels found on the wired lines:
  RDY high, LRST asserted, FLT asserted (R92, R181). -/
  | powerOnResetEnd (straps : BitVec 5) (rdyHigh lrst flt : Bool)
  /-- `none`: the attempt ended with no answer; otherwise the bytes read (R182). -/
  | readAttemptEnd (answer : Option (List Byte))
  | storeClockHeldTimeout
  | readRetryTimer
  | idleInterval
  | roundStartMark
  /-- The marks the OTHER nodes drove: bit n of `urgent` and `ordinary` is node n's slot (R42). -/
  | holdSlotEnd (urgent ordinary : W32) (hold : Bool)
  | frameStartLimit
  | holdWaitEnd
  /-- The bytes of the frame followed, from the sender byte to the check code, as far as they came (R38). -/
  | frameEnd (bytes : List Byte)
  | earlyEndSilence
  | framingViolation (v : Violation)
  | readbackFailure
  /-- Whether any OTHER node marked the slot (R46). -/
  | objectionSlotEnd (marked : Bool)
  | lrstRisingEdge
  | lrstReleased
  | ownLrstEnd
  | fltRisingEdge
  | ownFltEnd
  | takeRunOpen
  | takeJoin
  | takeLoadSet
  | takeVerdict
  | takeBypass
  | takeShed
  | takePause
  | takeResume
  | takeRunAbort
  | takeBenchFaultMarker
  | takeLinkResetMarker
  | takePoolExtend
  | takeSealClaim
  | takeSealDone
  | takeSealSpoil
  | takeAnnounce
  | takeQuery
  | takeState
  | mirrorCheckNotice
  | stcRunOpened
  | stcTableRefusal
  | joinOutcome (s : Socket)
  | ownJoinApplied
  | ownJoinIgnored
  | stcLoadSet
  | settleTimerExpiry (s : Socket)
  | rdyRisingEdge
  | rdyFallingEdge
  | stcDisturbance
  | accuracyWindowEnd (s : Socket)
  | creepStartWindowEnd (s : Socket)
  | adjustmentOutcome (s : Socket)
  | stcMaskEnd (s : Socket)
  | stcStepComplete
  | localBypass (s : Socket)
  | muteNotice
  | stcPaused
  | stcResumed
  | stcRunEnded
  | refPulse
  /-- The physical position whose pulse input rises (R90). -/
  | meterPulse (p : Position)
  | gateTimeout (s : Socket)
  | creepWindowTimer (s : Socket)
  | startWindowTimer (s : Socket)
  | writeBurstEnd (s : Socket)
  | pulseMaskEnd (s : Socket)
  | incStartUpEnd
  | idleProbeStart (s : Socket)
  /-- The resistance measured on the position's probe lines, in micro-ohms (R113). -/
  | detectEnd (p : Position) (microOhms : Nat)
  | probeBurstEnd (s : Socket)
  | incRunOpened
  | insertionSenseAboveVopen (p : Position)
  | insertionWindowEnd (s : Socket)
  | presetOutcome (s : Socket)
  | supervisionTimerLimit (s : Socket) (t : SupTimer)
  | supervisionTimerDecay (s : Socket) (t : SupTimer)
  /-- The highest level the sense stood above during the millisecond (R125). -/
  | supervisionTimerRise (p : Position) (level : SupTimer)
  | coolDownEnd (s : Socket)
  | incShed
  | incRunEnded
  | verifyFailReport (s : Socket)
  | presetRequest (s : Socket)
  | presetBurstEnd (s : Socket)
  | correctionRequest (s : Socket)
  | adjustBurstEnd (s : Socket)
  | verificationRequest (s : Socket)
  | verifyBurstEnd (s : Socket)
  | cruRunOpened
  /-- The port takes the oldest request of this kind for the socket (R157). -/
  | burstRequest (s : Socket) (k : BurstKind)
  | burstWithdrawal (s : Socket)
  | orderSent (s : Socket)
  /-- The next bytes of the reply as they arrive on the position's MRX (R149, R151). -/
  | replyReceived (p : Position) (bytes : List RxByte)
  | replyTimerExpiry (s : Socket)
  | lineRestEnd (s : Socket)
  | strayByte (p : Position) (b : RxByte)
  | handOver
  | verificationOutcome (s : Socket)
  | ownClaimNotice
  | assignmentNotice
  | sealBurstEnd (s : Socket)
  | sluRunEnded
  | queryNotice
  | lampTimer
  | fltReleased
  | sluRunOpened
  | gcuRunOpened
  deriving DecidableEq, Repr

end Sys2Proof
end

