-- ==== Sys2Proof/Config.lean ====
section
/-! DEFINITION. The times and limits the manual fixes, and the two values it leaves open. Times are in milliseconds. -/

namespace Sys2Proof.Config

/-- FREE VALUE (log 8): the rotating ID taken from a clean frame whose sender field names no node number (above 31). R44
sets the rotating ID to the sender field, and a rotating ID lies in 0..31; the manual states no value for this case. -/
opaque foreignRotatingId : Byte → Node

/-- FREE VALUE (log 14): the number, in the order of R5's list, of the local out cause a socket takes where R85, R164, R165 or
R176 gives it the out cause of its roster entry and that entry carries none. By run number, node and socket. -/
opaque unstatedOutCause : Byte → Node → Socket → Fin 10

/-- R59. -/
def fltAssertMs : Nat := 10
/-- R57. -/
def lrstAssertMs : Nat := 1
/-- R35, hold wait. -/
def holdWaitMs : Nat := 2
/-- R182. -/
def retryMs : Nat := 10
/-- R182. -/
def maxAttempts : Nat := 3
/-- R42. -/
def holdMarkFill : Nat := 5
/-- R46 check 4, R52. -/
def inboundRoom : Nat := 8
/-- R46 check 1. -/
def maxBody : Nat := 40
/-- R50. -/
def objectionLimit : Nat := 3
/-- R88. -/
def resumeExtraMs : Nat := 1000
/-- R93. -/
def maskMs : Nat := 500
/-- R113. -/
def detectMs : Nat := 50
/-- R117. -/
def idleProbeMs : Nat := 500
/-- R115. -/
def usableAgeMs : Nat := 1000
/-- R129. -/
def coolDownMs : Nat := 1000
/-- R150. -/
def replyMs : Nat := 250
/-- R152, after a reply status. -/
def restMs : Nat := 2
/-- R152, after TIMEOUT or BAD_REPLY. -/
def longRestMs : Nat := 50
/-- R125: a timer falls by 1 each time the sub-count completes this many milliseconds. -/
def decayMs : Nat := 16
/-- The largest seal number (R10). -/
def maxSealNumber : Nat := 4294967295
/-- R193. -/
def counterMax : Nat := 65535
/-- R116, R126. -/
def smallCountMax : Nat := 255
/-- R101. -/
def errorMax : Int := 999999
/-- R199. -/
def imageBytes : Nat := 1433

/-- R125, tOVB by selection code. -/
def tOvb : Fin 4 → Nat
  | 0 => 60
  | 1 => 120
  | 2 => 240
  | 3 => 480

/-- R125, tOPEN by selection code. -/
def tOpen : Fin 4 → Nat
  | 0 => 5
  | 1 => 10
  | 2 => 20
  | 3 => 40

/-- R122, tINS by selection code. -/
def tIns : Fin 4 → Nat
  | 0 => 30
  | 1 => 60
  | 2 => 120
  | 3 => 240

end Sys2Proof.Config
end

