-- ==== Sys2Proof/Machine/State.lean ====
section
/-! DEFINITION. The state of one station as plain data, block by block as 00_scope.md 3.1 lists them, and its value under
power-on reset. The queue of commands stands beside the station. -/

namespace Sys2Proof.Machine

/-- A timer in milliseconds: `none` stopped (or ended), `some n` running with n ms left. -/
abbrev Timer := Option Nat

/-! ### Configuration (chapter 9) -/

/-- R179: the stages of start-up. STRAPS ends at once, so no state rests in it. -/
inductive CflStage where
  /-- Power-on reset is held. -/
  | inReset
  /-- A read attempt is in progress. -/
  | reading
  /-- The 10 ms between two attempts (R182). -/
  | retryWait
  | running
  deriving DecidableEq, Repr

/-- R188. -/
inductive ConfigStatus where
  | noStore
  | badImage
  | conditions (remapIgnored slotABad slotBBad : Bool)
  deriving DecidableEq, Repr

/-- The configuration status names a usable image (R188). -/
def ConfigStatus.usable : ConfigStatus → Bool
  | .noStore => false
  | .badImage => false
  | .conditions _ _ _ => true

/-- R184. -/
structure StationSection where
  enable : Quad Bool
  remap : Quad Position
  shedRank : Quad Nat
  tOvb : Fin 4
  tOpen : Fin 4
  tIns : Fin 4
  verifyWrites : Bool
  deriving DecidableEq, Repr

/-- R111: 0 to A, 1 to B, 2 to C, 3 to D. -/
def identityRemap : Quad Position := ⟨0, 1, 2, 3⟩

/-- What is held when the image is not usable: no socket enabled, the identity remap (R112, R188, R189). DESIGN CHOICE
(log 38): the manual names no shed ranks, time-selection codes or verify-writes flag for such a station; they are held as 0
and false, and with no socket enabled nothing uses them. -/
def StationSection.unusable : StationSection :=
  { enable := .all4 false, remap := identityRemap, shedRank := .all4 0, tOvb := 0, tOpen := 0, tIns := 0,
    verifyWrites := false }

/-- R135. -/
inductive ChannelMode where
  | off
  | fixed
  | auto
  | once
  deriving DecidableEq, Repr

/-- A channel record of a profile (R185). -/
structure ChannelProfile where
  mode : ChannelMode
  preset : Int
  min : Int
  max : Int
  sensitivity : Nat
  deriving DecidableEq, Repr

/-- R185. -/
structure Profile where
  cls : W16
  km : Nat
  rlo : Nat
  rhi : Nat
  confirm : Bool
  channels : Quad ChannelProfile
  deriving DecidableEq, Repr

inductive StepKind where
  | accuracy
  | creep
  | start
  deriving DecidableEq, Repr

/-- A step record (R186, R199). `adjust` is the code as stored: 0xFF for none. -/
structure StepRecord where
  kind : StepKind
  loadPoint : Byte
  n : Nat
  s : Nat
  lower : Int
  upper : Int
  spread : Nat
  attempts : Nat
  adjust : Byte
  settle : Nat
  gateTimeout : Nat
  w : Nat
  deriving DecidableEq, Repr

/-- A usable run-table slot with its fingerprint (R186, R187). -/
structure RunTable where
  kr : Nat
  steps : List StepRecord
  fingerprint : W32
  deriving DecidableEq, Repr

structure Cfl where
  stage : CflStage
  node : Node
  attempts : Nat
  retry : Timer
  status : Option ConfigStatus
  station : Option StationSection
  profiles : Quad (Option Profile)
  slotA : Option RunTable
  slotB : Option RunTable
  deriving DecidableEq, Repr

/-! ### Frames (R196, R197): the fields as the bytes carry them -/

/-- The part of a STATE body that belongs to one socket. -/
structure SocketReport where
  insertion : Byte
  run : Byte
  cause : Byte
  detect : Byte
  changes : Byte
  overburden : Byte
  openFaults : Byte
  deriving DecidableEq, Repr

structure StateReport where
  status : Byte
  stationByte : Byte
  objections : W16
  ignored : W16
  run : Byte
  step : Byte
  sockets : Quad SocketReport
  deriving DecidableEq, Repr

/-- The part of a JOIN body that belongs to one socket. -/
structure JoinSocket where
  cls : W16
  fault : Byte
  deriving DecidableEq, Repr

inductive Body where
  | announce (status : Byte) (fpA fpB : W32) (mask : Byte)
  | query (target : Byte)
  | state (r : StateReport)
  | runOpen (slot : Byte) (fp first : W32) (count : W16)
  | join (mask : Byte) (fp : W32) (sockets : Quad JoinSocket)
  | loadSet (step loadPoint : Byte)
  | verdict (socket step verdict cause : Byte) (mean spread : W32) (attempts adjustments : Byte)
  | bypass (socket cause step : Byte)
  | shed (level : Byte)
  | pause
  | resume
  | runAbort
  | poolExtend (first : W32) (count : W16)
  | sealClaim (socket : Byte)
  | sealDone (socket : Byte) (number : W32) (digest : W16)
  | sealSpoil (socket : Byte) (number : W32) (cause : Byte)
  deriving DecidableEq, Repr

structure Frame where
  sender : Byte
  run : Byte
  body : Body
  deriving DecidableEq, Repr

/-! ### Link Controller (chapter 2) -/

inductive LinkState where
  | listen
  | active
  | mute
  deriving DecidableEq, Repr

/-- R37; `unknown` until the station has found the medium (R61). -/
inductive Medium where
  | unknown
  | free
  | round
  | frame
  | objection
  | holdWait
  | reset
  deriving DecidableEq, Repr

/-- An entry of the inbound queue (R52): a frame, with whether this station sent it (log 11), or a marker (R53). -/
inductive Entry where
  | frame (f : Frame) (own : Bool)
  | linkReset
  | benchFault
  deriving DecidableEq, Repr

/-- Where an outbound entry stands (R42, R45, R56). -/
inductive Place where
  | queued
  | candidate
  | onWire
  deriving DecidableEq, Repr

/-- An outbound entry: a complete frame but for sender and check code, which the LKC adds (R55). -/
structure OutEntry where
  run : Byte
  body : Body
  place : Place
  /-- A withdrawal waits for its round or slot to end (R56). -/
  withdrawn : Bool
  /-- The consecutive-objection count belongs to this entry (R50). -/
  counted : Bool
  deriving DecidableEq, Repr

structure Lkc where
  link : LinkState
  medium : Medium
  ordinary : Bool
  rotating : Node
  inbound : List Entry
  outbound : List OutEntry
  deferredJoin : Option OutEntry
  objections : Nat
  followed : Option Frame
  mark : Bool
  stopped : Bool
  lrst : Bool
  flt : Bool
  ownLrst : Timer
  ownFlt : Timer
  holdWait : Timer
  mirrorChecks : Nat
  deriving DecidableEq, Repr

/-! ### Bench Mirror (chapter 1) -/

inductive Phase where
  | closed
  | joining
  | stepping
  | sealing
  | ended
  deriving DecidableEq, Repr

/-- JOINING, STEPPING and SEALING are the open phases (R3). -/
def Phase.isOpen : Phase → Bool
  | .closed => false
  | .joining => true
  | .stepping => true
  | .sealing => true
  | .ended => false

inductive EndCause where
  | complete
  | aborted
  | fault
  | noneLeft
  deriving DecidableEq, Repr

/-- The out causes of R5. -/
inductive OutCause where
  | failed
  | overburden
  | openCircuit
  | shed
  | verifyFail
  | sealSpoiled
  | aborted
  | fault
  | restart
  | late
  deriving DecidableEq, Repr

inductive EntryState where
  | absent
  | active
  | done
  | sealWait
  | claimed
  | sealed
  | out
  deriving DecidableEq, Repr

/-- R5. -/
structure RosterEntry where
  state : EntryState
  cls : W16
  lastVerdict : Option Nat
  out : Option OutCause
  number : Option Nat
  deriving DecidableEq, Repr

def RosterEntry.absent : RosterEntry :=
  { state := .absent, cls := 0, lastVerdict := none, out := none, number := none }

/-- R10. -/
structure PoolBlock where
  first : Nat
  count : Nat
  next : Nat
  deriving DecidableEq, Repr

structure Mirror where
  runNo : Byte
  slot : Fin 2
  fingerprint : W32
  phase : Phase
  endCause : Option EndCause
  step : Option Nat
  stepCount : Option Nat
  stepComplete : Bool
  paused : Bool
  roster : List RosterEntry
  pool : List PoolBlock
  highWater : Nat
  issued : Nat
  sealedCount : Nat
  spoiledCount : Nat
  waiting : List Nat
  deriving DecidableEq, Repr

/-- What the run-opened notice carries (R34). -/
structure RunHeader where
  run : Byte
  slot : Fin 2
  fingerprint : W32
  deriving DecidableEq, Repr

/-- The two notices that go to every block (R34). -/
inductive RunNotice where
  | opened (h : RunHeader)
  | phase (p : Phase) (c : Option EndCause)
  deriving DecidableEq, Repr

/-- The notice of a run's opening or of a phase change last given to each block of the station (R34; log 5). -/
structure BlockNotices where
  lkc : Option RunNotice
  stc : Option RunNotice
  gcu : Option RunNotice
  inc : Option RunNotice
  cru : Option RunNotice
  mpc : Option RunNotice
  slu : Option RunNotice
  rpu : Option RunNotice
  cfl : Option RunNotice
  deriving DecidableEq, Repr

def BlockNotices.all (n : Option RunNotice) : BlockNotices :=
  { lkc := n, stc := n, gcu := n, inc := n, cru := n, mpc := n, slu := n, rpu := n, cfl := n }

/-! ### Gate Counter Unit (chapter 4) -/

inductive SampleStatus where
  | ok
  | noPulse
  | overRange
  deriving DecidableEq, Repr

/-- R104. -/
structure Sample where
  gate : Nat
  count : Option W32
  error : Int
  status : SampleStatus
  deriving DecidableEq, Repr

/-- The parameters of an accuracy window (R95). -/
structure GateParams where
  n : Nat
  s : Nat
  timeoutMs : Nat
  km : Nat
  kr : Nat
  deriving DecidableEq, Repr

/-- An open gate (stage GATING, R95). -/
structure OpenGate where
  number : Nat
  pulses : Nat
  openedAt : W32
  deriving DecidableEq, Repr

/-- The window record of R95. For ACCURACY, no open gate is the stage WAIT_FIRST. `w` is the parameter W, in seconds as
the step record has it (R199); the timers are in milliseconds. -/
inductive Window where
  | none
  | accuracy (p : GateParams) (gate : Option OpenGate) (timer : Nat)
  | creep (w timer seen : Nat)
  | start (w timer seen : Nat)
  deriving DecidableEq, Repr

structure GcuSocket where
  mask : Timer
  window : Window
  samples : List Sample
  deriving DecidableEq, Repr

/-- What the GCU has been told and has not taken. A write burst's end waits with what is left of the 500 ms that the socket's
pulse mask runs from that end (R160). -/
inductive GcuMsg where
  | runOpened (h : RunHeader)
  | writeBurstEnd (s : Socket) (left : Nat)
  deriving DecidableEq, Repr

structure Gcu where
  refCount : W32
  rdy : Bool
  sockets : Quad GcuSocket
  inbox : List GcuMsg
  deriving DecidableEq, Repr

/-! ### Step Controller (chapter 3) -/

/-- R63. -/
inductive RunState where
  | idle
  | joining
  | joined
  | settling
  | ready
  | measuring
  | adjusting
  | masked
  | held
  | stepDone
  | done
  | verifying
  | claiming
  | sealWait
  | sealing
  | sealed
  | out
  deriving DecidableEq, Repr

/-- The stepping group of R63. -/
def RunState.stepping : RunState → Bool
  | .settling => true
  | .ready => true
  | .measuring => true
  | .adjusting => true
  | .masked => true
  | .held => true
  | .stepDone => true
  | _ => false

/-- The sealing group of R63. -/
def RunState.inSealing : RunState → Bool
  | .verifying => true
  | .claiming => true
  | .sealWait => true
  | .sealing => true
  | _ => false

inductive VerdictCause where
  | limit
  | spread
  | noPulse
  | overRange
  | adjLimit
  | svcFail
  | locked
  | creep
  | noStart
  deriving DecidableEq, Repr

inductive Verdict where
  | pass
  | fail (c : VerdictCause)
  deriving DecidableEq, Repr

/-- R64. -/
structure VerdictRecord where
  step : Nat
  loadPoint : Byte
  verdict : Verdict
  mean : Int
  spread : Nat
  attempts : Nat
  adjustments : Nat
  deriving DecidableEq, Repr

/-- R62. -/
structure RunCtx where
  run : RunState
  attempt : Nat
  adjustments : Nat
  disturbed : Bool
  settle : Timer
  settlePeriod : Option Nat
  waitMask : Bool
  lastWindow : Option (Int × Nat)
  outCause : Option OutCause
  verdicts : List VerdictRecord
  deriving DecidableEq, Repr

/-- R119. -/
inductive JoinFault where
  | none
  | disabled
  | noMeter
  | identFail
  | identMismatch
  | profileMismatch
  | meterLocked
  | insertFail
  | presetFail
  | tableMismatch
  | late
  deriving DecidableEq, Repr

inductive JoinOutcome where
  | joined (cls : W16)
  | fault (c : JoinFault)
  deriving DecidableEq, Repr

/-- The report of an accuracy window (R103); the sample list stands in the GCU. -/
structure WindowReport where
  timedOut : Bool
  samples : List Sample
  mean : Int
  spread : Nat
  deriving DecidableEq, Repr

/-- The CRU's answers to a correction (R80). -/
inductive AdjustOutcome where
  | ok
  | adjLimit
  | locked
  | svcFail
  deriving DecidableEq, Repr

/-- What the STC has been told and has not yet taken: notices of the BMR (R34), reports of the INC, GCU and CRU, and the
mute notice of the LKC. -/
inductive StcMsg where
  | runOpened (h : RunHeader)
  | tableRefusal (run : Byte) (fp : W32)
  | ownJoin (applied : Bool) (mask : Byte)
  /-- `noneLeft`: this LOAD_SET(0) ended the run NONE_LEFT (R70). -/
  | loadSet (k : Nat) (paused noneLeft : Bool)
  | disturbance
  | stepComplete (step : Nat) (last : Bool)
  | paused
  | resumed
  | ended (c : EndCause)
  | joinOutcome (s : Socket) (o : JoinOutcome)
  | bypass (s : Socket) (c : OutCause)
  | accuracyEnd (s : Socket) (r : WindowReport)
  | timedEnd (s : Socket) (v : Verdict) (seen : Nat)
  | maskEnd (s : Socket)
  | adjusted (s : Socket) (o : AdjustOutcome)
  | mute
  deriving DecidableEq, Repr

structure Stc where
  ctx : Quad RunCtx
  joinedMask : Quad Bool
  classes : Quad W16
  joinPlaced : Bool
  /-- The table slot of the run the STC is at, as its run-opened notice carried it (R34, R71; log 15). -/
  slot : Fin 2
  step : Nat
  runEnded : Option EndCause
  muted : Bool
  inbox : List StcMsg
  deriving DecidableEq, Repr

/-! ### Meter Port Controller (chapter 7) -/

/-- The written fields of a seal record (R169, R198), kept apart from its write status. -/
structure SealFields where
  number : W32
  run : Byte
  fingerprint : W32
  node : Byte
  socket : Byte
  digest : W16
  channels : Quad W16
  deriving DecidableEq, Repr

/-- R153. -/
inductive Order where
  | ident
  | readCh (c : Channel)
  | writeCh (c : Channel) (v : Int)
  | writeSeal (f : SealFields)
  | lock
  | readSeal
  deriving DecidableEq, Repr

/-- The fields a reply with status OK carried (R153). A READ_SEAL reply keeps the 21 bytes as the meter sent them. -/
inductive Reply where
  | ident (cls : W16) (serial : BitVec 64) (presence : Quad Bool) (locked : Bool)
  | readCh (v : Int)
  | writeCh
  | writeSeal
  | lock (locked : Bool)
  | readSeal (present : Option (List Byte))
  deriving DecidableEq, Repr

/-- R150: the outcome of an exchange, and R155: the result of a burst. -/
inductive Result where
  | ok
  | refused
  | locked
  | badOrder
  | badCheck
  | timeout
  | badReply
  deriving DecidableEq, Repr

/-- R155. -/
structure ExchangeRecord where
  order : Order
  outcome : Result
  reply : Option Reply
  deriving DecidableEq, Repr

/-- A burst as its requester hands it over: a first order and those after it, 1..8 in all (R155). -/
structure Burst where
  id : Nat
  kind : BurstKind
  first : Order
  rest : List Order
  deriving DecidableEq, Repr

/-- The end of a burst as reported to its requester (R160). -/
structure BurstReport where
  id : Nat
  kind : BurstKind
  result : Result
  records : List ExchangeRecord
  deriving DecidableEq, Repr

inductive ExchangeStage where
  /-- The next order waits for the line's rest to end (R152). -/
  | waitRest
  | sending
  /-- The bytes of the reply so far, and the reply timer. -/
  | awaiting (rx : List Byte) (timer : Nat)
  deriving DecidableEq, Repr

/-- A running burst: the order in hand, those after it, and the records so far. -/
structure Running where
  id : Nat
  kind : BurstKind
  order : Order
  rest : List Order
  records : List ExchangeRecord
  stage : ExchangeStage
  deriving DecidableEq, Repr

structure Port where
  running : Option Running
  waiting : Option Burst
  rest : Timer
  deriving DecidableEq, Repr

inductive MpcMsg where
  | request (s : Socket) (b : Burst)
  | withdraw (s : Socket) (id : Nat)
  deriving DecidableEq, Repr

structure Mpc where
  ports : Quad Port
  nextBurst : Nat
  inbox : List MpcMsg
  deriving DecidableEq, Repr

/-! ### Insertion Controller (chapter 5) -/

/-- R109. -/
inductive Insertion where
  | bypassed
  | probing
  | inserting
  | inserted
  | cooling
  deriving DecidableEq, Repr

/-- R113. -/
inductive DetectClass where
  | none
  | short
  | valid
  deriving DecidableEq, Repr

/-- R114. -/
inductive IdentOutcome where
  | ok
  | fail
  | mismatch
  | locked
  | classMismatch
  deriving DecidableEq, Repr

/-- The meter fields of a probe result (R115). -/
structure MeterId where
  cls : W16
  serial : BitVec 64
  presence : Quad Bool
  deriving DecidableEq, Repr

/-- R115. -/
structure ProbeResult where
  detect : DetectClass
  ident : Option IdentOutcome
  meter : Option MeterId
  age : Nat
  deriving DecidableEq, Repr

/-- Where a probe cycle stands (R113, R114). -/
inductive ProbeCycle where
  | none
  | detect (timer : Nat)
  | classify (burst : Nat)
  deriving DecidableEq, Repr

/-- Where a join sequence stands (R120 to R124). `request`: the number of the preset request this join made (R123, R146;
log 20). -/
inductive JoinStage where
  | none
  | waitCool
  | waitCycle
  | freshCycle
  | inserting
  | preset (request : Nat)
  deriving DecidableEq, Repr

/-- R125. `above`: the sense stood above the level in the current millisecond. -/
structure Supervision where
  count : Nat
  decay : Nat
  above : Bool
  deriving DecidableEq, Repr

def Supervision.zero : Supervision := { count := 0, decay := 0, above := false }

structure IncSocket where
  state : Insertion
  probe : Option ProbeResult
  changes : Nat
  overburden : Supervision
  openCircuit : Supervision
  overburdenFaults : Nat
  openFaults : Nat
  coolDown : Timer
  joinFault : JoinFault
  deferred : Option OutCause
  join : JoinStage
  cycle : ProbeCycle
  window : Timer
  idleWait : Timer
  joinClass : W16
  joinPresence : Quad Bool
  deriving DecidableEq, Repr

inductive IncMsg where
  | startUpEnd
  /-- `late`: the sockets whose join of that run the STC has asked to be ended late before the INC has taken the notice
  (R70, R89; log 48). -/
  | runOpened (h : RunHeader) (late : Quad Bool)
  | shed (level : Nat)
  | ended (c : EndCause)
  | probeEnd (s : Socket) (r : BurstReport)
  /-- `request`: the number of the preset request it answers, so of the join it belongs to (R123, R146; log 20). -/
  | presetOutcome (s : Socket) (request : Nat) (ok : Bool)
  | verifyFail (s : Socket)
  deriving DecidableEq, Repr

structure Inc where
  sockets : Quad IncSocket
  idle : Bool
  /-- The number of the next preset request (the model's own; log 20). -/
  nextPreset : Nat
  inbox : List IncMsg
  deriving DecidableEq, Repr

/-! ### Correction Unit (chapter 6) -/

/-- R134. -/
structure ChannelRec where
  mode : ChannelMode
  preset : Int
  min : Int
  max : Int
  sensitivity : Nat
  current : Option Int
  mark : Bool
  deriving DecidableEq, Repr

/-- The request in progress (R136, R147), with its burst's number; a preset keeps the number of the INC's request too. -/
inductive CruRequest where
  | none
  | preset (burst request : Nat)
  | adjust (burst : Nat) (c : Channel) (v : Int)
  | verify (burst : Nat)
  deriving DecidableEq, Repr

structure CruSocket where
  table : Option (Quad ChannelRec)
  request : CruRequest
  deriving DecidableEq, Repr

inductive CruMsg where
  | runOpened (h : RunHeader)
  | presetRequest (s : Socket) (request : Nat)
  | correction (s : Socket) (c : Channel) (mean : Int)
  | verifyRequest (s : Socket)
  | burstEnd (s : Socket) (r : BurstReport)
  deriving DecidableEq, Repr

structure Cru where
  sockets : Quad CruSocket
  inbox : List CruMsg
  deriving DecidableEq, Repr

/-! ### Seal Unit (chapter 8) -/

inductive WriteStatus where
  | pending
  | written
  | spoiled
  deriving DecidableEq, Repr

/-- R169. -/
structure SealRecord where
  fields : SealFields
  status : WriteStatus
  deriving DecidableEq, Repr

inductive SluRequest where
  | none
  | verify
  | seal (burst : Nat)
  deriving DecidableEq, Repr

structure SluSocket where
  held : Option Nat
  record : Option SealRecord
  request : SluRequest
  deriving DecidableEq, Repr

inductive ClaimResult where
  | assigned (number : Nat)
  | waiting
  | refused
  deriving DecidableEq, Repr

inductive SluMsg where
  | runOpened (h : RunHeader)
  | ended (c : EndCause)
  | ownClaim (s : Socket) (r : ClaimResult)
  | assignment (s : Socket) (number : Nat)
  | handOver (s : Socket)
  /-- `p`: the mirror's phase when the CRU made the report (R165). -/
  | verification (s : Socket) (ok : Bool) (p : Phase)
  | burstEnd (s : Socket) (r : BurstReport)
  deriving DecidableEq, Repr

structure Slu where
  sockets : Quad SluSocket
  inbox : List SluMsg
  deriving DecidableEq, Repr

/-! ### Report Unit (chapter 10) -/

/-- R193. -/
inductive OwnFault where
  | none
  | objectionLimit
  | duplicate
  | mirrorCheck
  deriving DecidableEq, Repr

structure Rpu where
  objectionTotal : Nat
  ignored : Nat
  ownFault : OwnFault
  queryPending : Bool
  queries : Nat
  /-- The LKC has given the RPU the mute notice (R41; log 44). -/
  muted : Bool
  lampPhase : Fin 8
  deriving DecidableEq, Repr

/-! ### The station and the machine -/

structure Station where
  cfl : Cfl
  lkc : Lkc
  bmr : Mirror
  notices : BlockNotices
  stc : Stc
  gcu : Gcu
  inc : Inc
  cru : Cru
  mpc : Mpc
  slu : Slu
  rpu : Rpu
  deriving DecidableEq, Repr

/-- The station and the commands waiting for it, first in first out. -/
structure State where
  pending : List Instr
  st : Station
  deriving DecidableEq, Repr

/-- The spec names no event that stops the part, so there is no fault: an empty type. -/
inductive Fault where
  deriving DecidableEq, Repr

/-- Why a command has no meaning. -/
inductive Refusal where
  /-- Raised by an arm of exec whose command has no meaning yet. No arm raises it in this model. Safe: the model stops
  where the hardware goes on. -/
  | notModelled (mnemonic : String)
  deriving DecidableEq, Repr

/-- What a step answers. -/
abbrev Answer := Host.Outcome State Fault Refusal

/-! ### Values under power-on reset, each as its block's chapter gives it -/

/-- R1. -/
def Mirror.reset : Mirror :=
  { runNo := 0, slot := 0, fingerprint := 0, phase := .closed, endCause := none, step := none, stepCount := none,
    stepComplete := false, paused := false, roster := List.replicate 128 .absent, pool := [], highWater := 0,
    issued := 0, sealedCount := 0, spoiledCount := 0, waiting := [] }

/-- R61. -/
def Lkc.reset : Lkc :=
  { link := .listen, medium := .unknown, ordinary := false, rotating := 31, inbound := [], outbound := [],
    deferredJoin := none, objections := 0, followed := none, mark := false, stopped := false, lrst := false,
    flt := false, ownLrst := none, ownFlt := none, holdWait := none, mirrorChecks := 0 }

/-- R62. -/
def RunCtx.reset : RunCtx :=
  { run := .idle, attempt := 1, adjustments := 0, disturbed := false, settle := none, settlePeriod := none,
    waitMask := false, lastWindow := none, outCause := none, verdicts := [] }

/-- R62, R87. -/
def Stc.reset : Stc :=
  { ctx := .all4 .reset, joinedMask := .all4 false, classes := .all4 0, joinPlaced := false, slot := 0,
    step := 0, runEnded := none, muted := false, inbox := [] }

/-- R108. -/
def Gcu.reset : Gcu :=
  { refCount := 0, rdy := true, sockets := .all4 { mask := none, window := .none, samples := [] }, inbox := [] }

/-- R133. -/
def IncSocket.reset : IncSocket :=
  { state := .bypassed, probe := none, changes := 0, overburden := .zero, openCircuit := .zero,
    overburdenFaults := 0, openFaults := 0, coolDown := none, joinFault := .none, deferred := none, join := .none,
    cycle := .none, window := none, idleWait := none, joinClass := 0, joinPresence := .all4 false }

/-- R133. -/
def Inc.reset : Inc := { sockets := .all4 .reset, idle := false, nextPreset := 0, inbox := [] }

/-- R136: the tables are built when start-up ends. -/
def Cru.reset : Cru := { sockets := .all4 { table := none, request := .none }, inbox := [] }

/-- R162. -/
def Port.reset : Port := { running := none, waiting := none, rest := none }

/-- R162. -/
def Mpc.reset : Mpc := { ports := .all4 .reset, nextBurst := 0, inbox := [] }

/-- R163. -/
def SluSocket.reset : SluSocket := { held := none, record := none, request := .none }

/-- R163. -/
def Slu.reset : Slu := { sockets := .all4 .reset, inbox := [] }

/-- R193. -/
def Rpu.reset : Rpu :=
  { objectionTotal := 0, ignored := 0, ownFault := .none, queryPending := false, queries := 0, muted := false,
    lampPhase := 0 }

/-- R179, R188. -/
def Cfl.reset : Cfl :=
  { stage := .inReset, node := 0, attempts := 0, retry := none, status := none, station := none,
    profiles := .all4 none, slotA := none, slotB := none }

/-- Every block at its power-on value, with power-on reset held (R179). -/
def Station.reset : Station :=
  { cfl := .reset, lkc := .reset, bmr := .reset, notices := .all none, stc := .reset, gcu := .reset, inc := .reset,
    cru := .reset, mpc := .reset, slu := .reset, rpu := .reset }

/-- The machine under power-on reset, no command waiting (log 3). -/
def State.reset : State := { pending := [], st := .reset }

end Sys2Proof.Machine
end

