-- ==== Sys2Proof/Machine/Operands.lean ====
section
/-! DEFINITION. The byte formats of chapter 11: check codes, the link frame, the order and reply frames of a meter port,
the verdict and seal record bytes, the configuration image. -/

namespace Sys2Proof.Machine

/-! ### Bytes (R196: most significant byte first) -/

/-- The byte at an offset; a byte that was not delivered reads as 0. -/
def byteAt (bs : List Byte) (i : Nat) : Byte := bs.getD i 0

def be16 (x : W16) : List Byte := [x.extractLsb' 8 8, x.extractLsb' 0 8]

def be32 (x : W32) : List Byte :=
  [x.extractLsb' 24 8, x.extractLsb' 16 8, x.extractLsb' 8 8, x.extractLsb' 0 8]

def join16 (h l : Byte) : W16 := h ++ l

def join32 (a b c d : Byte) : W32 := a ++ b ++ c ++ d

def word16 (bs : List Byte) (i : Nat) : W16 := join16 (byteAt bs i) (byteAt bs (i + 1))

def word32 (bs : List Byte) (i : Nat) : W32 :=
  join32 (byteAt bs i) (byteAt bs (i + 1)) (byteAt bs (i + 2)) (byteAt bs (i + 3))

/-- `n` times `f`. -/
def times {α : Type} (f : α → α) : Nat → α → α
  | 0, x => x
  | n + 1, x => times f n (f x)

/-! ### Check codes -/

def crc16Bit (c : W16) : W16 := if c.msb then (c <<< 1) ^^^ 0x1021#16 else c <<< 1

/-- One byte enters, most significant bit first (R196). -/
def crc16Byte (c : W16) (b : Byte) : W16 := times crc16Bit 8 (c ^^^ (b ++ 0#8))

/-- R196: polynomial 0x1021, initial value 0xFFFF, no final complement. -/
def crc16 (bs : List Byte) : W16 := bs.foldl crc16Byte 0xFFFF#16

def crc8Bit (c : Byte) : Byte := if c.msb then (c <<< 1) ^^^ 0x07#8 else c <<< 1

def crc8Byte (c : Byte) (b : Byte) : Byte := times crc8Bit 8 (c ^^^ b)

/-- R198: polynomial 0x07, initial value 0. -/
def crc8 (bs : List Byte) : Byte := bs.foldl crc8Byte 0#8

/-- The register is shifted towards its least significant bit, so the polynomial 0x04C11DB7 stands bit-reversed. -/
def crc32Bit (c : W32) : W32 := if c.getLsbD 0 then (c >>> 1) ^^^ 0xEDB88320#32 else c >>> 1

def crc32Byte (c : W32) (b : Byte) : W32 := times crc32Bit 8 (c ^^^ (0#24 ++ b))

/-- R187: initial value 0xFFFFFFFF, each byte least significant bit first, final complement. -/
def crc32 (bs : List Byte) : W32 := ~~~ (bs.foldl crc32Byte 0xFFFFFFFF#32)

/-! ### Code sets (R197) -/

def codeOf (n : Nat) : Byte := BitVec.ofNat 8 n

def JoinFault.code : JoinFault → Byte
  | .none => 0x00
  | .disabled => 0x01
  | .noMeter => 0x02
  | .identFail => 0x03
  | .identMismatch => 0x04
  | .profileMismatch => 0x05
  | .meterLocked => 0x06
  | .insertFail => 0x07
  | .presetFail => 0x08
  | .tableMismatch => 0x09
  | .late => 0x0A

def VerdictCause.code : VerdictCause → Byte
  | .limit => 0x10
  | .spread => 0x11
  | .noPulse => 0x12
  | .overRange => 0x13
  | .adjLimit => 0x14
  | .svcFail => 0x15
  | .locked => 0x16
  | .creep => 0x17
  | .noStart => 0x18

/-- The out causes in the order of R5's list. -/
def OutCause.nth : Fin 10 → OutCause
  | 0 => .failed
  | 1 => .overburden
  | 2 => .openCircuit
  | 3 => .shed
  | 4 => .verifyFail
  | 5 => .sealSpoiled
  | 6 => .aborted
  | 7 => .fault
  | 8 => .restart
  | 9 => .late

def OutCause.code : OutCause → Byte
  | .failed => 0x20
  | .overburden => 0x21
  | .openCircuit => 0x22
  | .shed => 0x24
  | .verifyFail => 0x25
  | .sealSpoiled => 0x26
  | .aborted => 0x27
  | .fault => 0x28
  | .restart => 0x29
  | .late => 0x2A

/-- The causes a SEAL_SPOIL carries (R16, R172, R176). -/
inductive SpoilCause where
  | svcFail
  | locked
  | sealMismatch
  | aborted
  | fault
  deriving DecidableEq, Repr

def SpoilCause.code : SpoilCause → Byte
  | .svcFail => 0x15
  | .locked => 0x16
  | .sealMismatch => 0x19
  | .aborted => 0x27
  | .fault => 0x28

def spoilCodes : List Byte := [0x15, 0x16, 0x19, 0x27, 0x28]

/-- The causes a BYPASS may carry, by code (R16). -/
def bypassCause (c : Byte) : Option OutCause :=
  match c.toNat with
  | 0x21 => some .overburden
  | 0x22 => some .openCircuit
  | 0x24 => some .shed
  | 0x25 => some .verifyFail
  | _ => none

def Verdict.code : Verdict → Byte
  | .pass => 0
  | .fail _ => 1

/-- 0 on a PASS (R170, R197). -/
def Verdict.causeCode : Verdict → Byte
  | .pass => 0
  | .fail c => c.code

def Phase.code : Phase → Nat
  | .closed => 0
  | .joining => 1
  | .stepping => 2
  | .sealing => 3
  | .ended => 4

def LinkState.code : LinkState → Nat
  | .listen => 0
  | .active => 1
  | .mute => 2

def OwnFault.code : OwnFault → Nat
  | .none => 0
  | .objectionLimit => 1
  | .duplicate => 2
  | .mirrorCheck => 3

def Insertion.code : Insertion → Byte
  | .bypassed => 0
  | .probing => 1
  | .inserting => 2
  | .inserted => 3
  | .cooling => 4

def RunState.code : RunState → Byte
  | .idle => 0
  | .joining => 1
  | .joined => 2
  | .settling => 3
  | .ready => 4
  | .measuring => 5
  | .adjusting => 6
  | .masked => 7
  | .held => 8
  | .stepDone => 9
  | .done => 10
  | .verifying => 11
  | .claiming => 12
  | .sealWait => 13
  | .sealing => 14
  | .sealed => 15
  | .out => 16

def DetectClass.code : DetectClass → Byte
  | .none => 0
  | .short => 1
  | .valid => 2

def ConfigStatus.code : ConfigStatus → Byte
  | .noStore => 0x80
  | .badImage => 0x40
  | .conditions r a b => codeOf ((if r then 1 else 0) + (if a then 2 else 0) + (if b then 4 else 0))

/-- R197: phase in bits 0..2, link state in bits 3..4, own fault cause in bits 5..6, bit 7 at 0. -/
def stationByte (p : Phase) (l : LinkState) (o : OwnFault) : Byte :=
  codeOf (p.code + 8 * l.code + 32 * o.code)

/-- R196: socket or channel s in bit s. DESIGN CHOICE (log 45): a mask byte the station sends has 0 in bits 4..7, of which the
manual says only that a receiver ignores them (R20). -/
def maskByte (q : Quad Bool) : Byte :=
  codeOf ((if q.s0 then 1 else 0) + (if q.s1 then 2 else 0) + (if q.s2 then 4 else 0) + (if q.s3 then 8 else 0))

/-- R20, R153: bits 4..7 are ignored. -/
def maskFlags (b : Byte) : Quad Bool := .tabulate fun i => b.getLsbD i.val

/-- A socket number carried in a frame, when it names one (R16). -/
def socketOf (b : Byte) : Option Socket := if h : b.toNat < 4 then some ⟨b.toNat, h⟩ else none

/-! ### The link frame (R196, R197) -/

def Body.kind : Body → Byte
  | .announce .. => 0x01
  | .query .. => 0x02
  | .state .. => 0x03
  | .runOpen .. => 0x10
  | .join .. => 0x11
  | .loadSet .. => 0x12
  | .verdict .. => 0x13
  | .bypass .. => 0x14
  | .shed .. => 0x15
  | .pause => 0x16
  | .resume => 0x17
  | .runAbort => 0x18
  | .poolExtend .. => 0x19
  | .sealClaim .. => 0x1A
  | .sealDone .. => 0x1B
  | .sealSpoil .. => 0x1C

def SocketReport.bytes (r : SocketReport) : List Byte :=
  [r.insertion, r.run, r.cause, r.detect, r.changes, r.overburden, r.openFaults]

def JoinSocket.bytes (j : JoinSocket) : List Byte := be16 j.cls ++ [j.fault]

def Body.bytes : Body → List Byte
  | .announce status a b mask => status :: be32 a ++ be32 b ++ [mask]
  | .query target => [target]
  | .state r =>
    [r.status, r.stationByte] ++ be16 r.objections ++ be16 r.ignored ++ [r.run, r.step] ++ r.sockets.s0.bytes
      ++ r.sockets.s1.bytes ++ r.sockets.s2.bytes ++ r.sockets.s3.bytes
  | .runOpen slot fp first count => slot :: be32 fp ++ be32 first ++ be16 count
  | .join mask fp j => mask :: be32 fp ++ j.s0.bytes ++ j.s1.bytes ++ j.s2.bytes ++ j.s3.bytes
  | .loadSet step lp => [step, lp]
  | .verdict s k v c mean spread att adj => [s, k, v, c] ++ be32 mean ++ be32 spread ++ [att, adj]
  | .bypass s c k => [s, c, k]
  | .shed l => [l]
  | .pause => []
  | .resume => []
  | .runAbort => []
  | .poolExtend first count => be32 first ++ be16 count
  | .sealClaim s => [s]
  | .sealDone s n d => s :: be32 n ++ be16 d
  | .sealSpoil s n c => s :: be32 n ++ [c]

def readSocketReport (b : List Byte) (i : Nat) : SocketReport :=
  { insertion := byteAt b i, run := byteAt b (i + 1), cause := byteAt b (i + 2), detect := byteAt b (i + 3),
    changes := byteAt b (i + 4), overburden := byteAt b (i + 5), openFaults := byteAt b (i + 6) }

def readJoinSocket (b : List Byte) (i : Nat) : JoinSocket := { cls := word16 b i, fault := byteAt b (i + 2) }

/-- The body of a kind code, when its length is the one the kind defines (R46 check 3, R196). -/
def readBody (kind : Byte) (b : List Byte) : Option Body :=
  match kind.toNat, b.length with
  | 0x01, 10 => some (.announce (byteAt b 0) (word32 b 1) (word32 b 5) (byteAt b 9))
  | 0x02, 1 => some (.query (byteAt b 0))
  | 0x03, 36 =>
    some (.state
      { status := byteAt b 0, stationByte := byteAt b 1, objections := word16 b 2, ignored := word16 b 4,
        run := byteAt b 6, step := byteAt b 7,
        sockets := ⟨readSocketReport b 8, readSocketReport b 15, readSocketReport b 22, readSocketReport b 29⟩ })
  | 0x10, 11 => some (.runOpen (byteAt b 0) (word32 b 1) (word32 b 5) (word16 b 9))
  | 0x11, 17 =>
    some (.join (byteAt b 0) (word32 b 1)
      ⟨readJoinSocket b 5, readJoinSocket b 8, readJoinSocket b 11, readJoinSocket b 14⟩)
  | 0x12, 2 => some (.loadSet (byteAt b 0) (byteAt b 1))
  | 0x13, 14 =>
    some (.verdict (byteAt b 0) (byteAt b 1) (byteAt b 2) (byteAt b 3) (word32 b 4) (word32 b 8) (byteAt b 12)
      (byteAt b 13))
  | 0x14, 3 => some (.bypass (byteAt b 0) (byteAt b 1) (byteAt b 2))
  | 0x15, 1 => some (.shed (byteAt b 0))
  | 0x16, 0 => some .pause
  | 0x17, 0 => some .resume
  | 0x18, 0 => some .runAbort
  | 0x19, 6 => some (.poolExtend (word32 b 0) (word16 b 4))
  | 0x1A, 1 => some (.sealClaim (byteAt b 0))
  | 0x1B, 7 => some (.sealDone (byteAt b 0) (word32 b 1) (word16 b 5))
  | 0x1C, 6 => some (.sealSpoil (byteAt b 0) (word32 b 1) (byteAt b 5))
  | _, _ => none

/-- The bytes the check code covers: the header and the body (R196). -/
def Frame.covered (f : Frame) : List Byte :=
  [f.sender, f.body.kind, f.run, codeOf f.body.bytes.length] ++ f.body.bytes

/-- The bytes of a frame on LDAT. -/
def Frame.encode (f : Frame) : List Byte := f.covered ++ be16 (crc16 f.covered)

/-- The declared length (R38). -/
def declaredLength (bs : List Byte) : Nat := (byteAt bs 3).toNat

/-- R46 check 2: the frame is whole to its declared length and its check code agrees. -/
def frameCheckOk (bs : List Byte) : Bool :=
  let l := declaredLength bs
  6 + l ≤ bs.length && crc16 (bs.take (4 + l)) == word16 bs (4 + l)

/-- R46 check 3: a known kind of the right length. -/
def frameFields (bs : List Byte) : Option Frame :=
  (readBody (byteAt bs 1) ((bs.drop 4).take (declaredLength bs))).map
    fun b => { sender := byteAt bs 0, run := byteAt bs 2, body := b }

/-- The frame the bytes hold, when they pass checks 1 to 3 of R46. -/
def readFrame (bs : List Byte) : Option Frame :=
  if declaredLength bs > Config.maxBody then none
  else if frameCheckOk bs then frameFields bs else none

/-! ### Orders and replies (R153, R198) -/

def Order.code : Order → Byte
  | .ident => 0x01
  | .readCh _ => 0x02
  | .writeCh _ _ => 0x03
  | .writeSeal _ => 0x04
  | .lock => 0x05
  | .readSeal => 0x06

/-- The 21 written bytes of a seal record (R198). -/
def SealFields.bytes (f : SealFields) : List Byte :=
  be32 f.number ++ [f.run] ++ be32 f.fingerprint ++ [f.node, f.socket] ++ be16 f.digest ++ be16 f.channels.s0
    ++ be16 f.channels.s1 ++ be16 f.channels.s2 ++ be16 f.channels.s3

def Order.body : Order → List Byte
  | .ident => []
  | .readCh c => [codeOf c.val]
  | .writeCh c v => codeOf c.val :: be16 (BitVec.ofInt 16 v)
  | .writeSeal f => f.bytes
  | .lock => []
  | .readSeal => []

/-- The order frame the port sends (R150, R198). -/
def Order.encode (o : Order) : List Byte :=
  let covered := o.code :: codeOf o.body.length :: o.body
  0xC3 :: covered ++ [crc8 covered]

/-- The five reply statuses by code (R198). -/
def replyStatus (b : Byte) : Option Result :=
  match b.toNat with
  | 0 => some .ok
  | 1 => some .refused
  | 2 => some .locked
  | 3 => some .badOrder
  | 4 => some .badCheck
  | _ => none

/-- The body lengths a reply to an order may have for a status (R198; check 4 of R151). -/
def replyLengths : Order → Result → List Nat
  | .ident, .ok => [12]
  | .readCh _, .ok => [3]
  | .writeCh _ _, .ok => [1]
  | .writeSeal _, .ok => [0]
  | .lock, .ok => [1]
  | .readSeal, .ok => [1, 22]
  | .readCh _, _ => [1]
  | .writeCh _ _, _ => [1]
  | _, _ => [0]

/-- The channel id an order names, for READ_CH and WRITE_CH (R151 check 7). -/
def Order.channel : Order → Option Channel
  | .readCh c => some c
  | .writeCh c _ => some c
  | _ => none

/-- The lock-state code (R198). -/
def lockState (b : Byte) : Option Bool :=
  match b.toNat with
  | 0 => some false
  | 1 => some true
  | _ => none

/-- The fields of an OK reply's body, or nothing when check 8 of R151 fails. -/
def replyFields (o : Order) (b : List Byte) : Option Reply :=
  match o with
  | .ident =>
    (lockState (byteAt b 11)).map fun l =>
      .ident (word16 b 0) (word32 b 2 ++ word32 b 6) (maskFlags (byteAt b 10)) l
  | .readCh _ => some (.readCh (word16 b 1).toInt)
  | .writeCh _ _ => some .writeCh
  | .writeSeal _ => some .writeSeal
  | .lock => (lockState (byteAt b 0)).map .lock
  | .readSeal =>
    match (byteAt b 0).toNat, b.length with
    | 0, 1 => some (.readSeal none)
    | 1, 22 => some (.readSeal (some (b.drop 1)))
    | _, _ => none

/-- R151 check 4. -/
def lengthWrong (o : Order) (status : Option Result) (len : Nat) : Bool :=
  match status with
  | some r => !(replyLengths o r).contains len
  | none => false

/-- R151 check 7, the channel id of a READ_CH or WRITE_CH reply. -/
def channelWrong (o : Order) (b : Byte) : Bool :=
  match o.channel with
  | some c => b != codeOf c.val
  | none => false

/-- What the port decides on the bytes of a reply so far: an outcome with its fields, or nothing yet. Each call judges the
bytes when the last of them has just arrived without a framing fault (R151 checks 2, 4, 6, 7, 8, 9). -/
def judgeReply (o : Order) (rx : List Byte) : Option (Result × Option Reply) :=
  let len := (byteAt rx 3).toNat
  let status := replyStatus (byteAt rx 2)
  if rx.length = 1 ∧ byteAt rx 0 ≠ 0x3C then some (.badReply, none)
  else if rx.length < 4 then none
  else if rx.length = 4 ∧ lengthWrong o status len then some (.badReply, none)
  else if rx.length < 5 + len then none
  else if crc8 ((rx.drop 1).take (3 + len)) ≠ byteAt rx (4 + len) then some (.badReply, none)
  else if byteAt rx 1 ≠ o.code then some (.badReply, none)
  else if channelWrong o (byteAt rx 4) then some (.badReply, none)
  else
    match status with
    | none => some (.badReply, none)
    | some .ok =>
      match replyFields o ((rx.drop 4).take len) with
      | none => some (.badReply, none)
      | some f => some (.ok, some f)
    | some r => some (r, none)

/-- The bytes of a reply enter one by one; the first decision ends the exchange and the bytes after it are discarded
(R151). The answer is the decision, or the bytes received so far. -/
def receive (o : Order) (rx : List Byte) : List RxByte → Option (Result × Option Reply) × List Byte
  | [] => (none, rx)
  | none :: _ => (some (.badReply, none), rx)
  | some b :: bs =>
    match judgeReply o (rx ++ [b]) with
    | some d => (some d, rx ++ [b])
    | none => receive o (rx ++ [b]) bs

/-! ### Verdict digest (R170) -/

def VerdictRecord.bytes (r : VerdictRecord) : List Byte :=
  [codeOf r.step, r.loadPoint, r.verdict.code, r.verdict.causeCode] ++ be32 (BitVec.ofInt 32 r.mean)
    ++ be32 (BitVec.ofNat 32 r.spread) ++ [codeOf r.attempts, codeOf r.adjustments]

/-- R170. -/
def verdictDigest (rs : List VerdictRecord) : W16 := crc16 (rs.flatMap VerdictRecord.bytes)

/-! ### The configuration image (R183 to R187, R199) -/

def natAt (b : List Byte) (i : Nat) : Nat := (byteAt b i).toNat
def nat16 (b : List Byte) (i : Nat) : Nat := (word16 b i).toNat
def nat32 (b : List Byte) (i : Nat) : Nat := (word32 b i).toNat
def int16 (b : List Byte) (i : Nat) : Int := (word16 b i).toInt
def int32 (b : List Byte) (i : Nat) : Int := (word32 b i).toInt

/-- A two-bit code, when it lies in 0..3. -/
def code4 (b : List Byte) (i : Nat) : Option (Fin 4) :=
  if h : natAt b i < 4 then some ⟨natAt b i, h⟩ else none

/-- Four optional values, all present. -/
def sequence4 {α : Type} (f : Fin 4 → Option α) : Option (Quad α) :=
  match f 0, f 1, f 2, f 3 with
  | some a, some b, some c, some d => some ⟨a, b, c, d⟩
  | _, _, _, _ => none

/-- A value within its bounds. -/
def within (lo hi n : Nat) : Bool := lo ≤ n && n ≤ hi

/-- R184: the station section, when every field lies within its values. -/
def readStation (b : List Byte) (o : Nat) : Option StationSection :=
  match sequence4 (fun i => code4 b (o + 1 + i.val)),
    sequence4 (fun i => if natAt b (o + 5 + i.val) ≤ 7 then some (natAt b (o + 5 + i.val)) else none),
    code4 b (o + 9), code4 b (o + 10), code4 b (o + 11) with
  | some remap, some rank, some ovb, some opn, some ins =>
    some { enable := maskFlags (byteAt b o), remap := remap, shedRank := rank, tOvb := ovb, tOpen := opn, tIns := ins,
           verifyWrites := (byteAt b (o + 12)).getLsbD 0 }
  | _, _, _, _, _ => none

/-- A remap that names one position twice (R184). -/
def duplicateRemap (r : Quad Position) : Bool := !decide r.toList.Nodup

def channelMode (n : Nat) : Option ChannelMode :=
  match n with
  | 0 => some .off
  | 1 => some .fixed
  | 2 => some .auto
  | 3 => some .once
  | _ => none

/-- R185, one channel record. -/
def readChannel (b : List Byte) (o : Nat) : Option ChannelProfile :=
  match channelMode (natAt b o) with
  | none => none
  | some m =>
    if int16 b (o + 3) ≤ int16 b (o + 5) ∧ within 1 10000 (nat16 b (o + 7)) then
      some { mode := m, preset := int16 b (o + 1), min := int16 b (o + 3), max := int16 b (o + 5),
             sensitivity := nat16 b (o + 7) }
    else none

/-- R185: a profile, when every field lies within its values. -/
def readProfile (b : List Byte) (o : Nat) : Option Profile :=
  match sequence4 (fun c => readChannel b (o + 15 + 9 * c.val)) with
  | none => none
  | some cs =>
    if within 1 1000000 (nat32 b (o + 2)) ∧ nat32 b (o + 6) ≤ nat32 b (o + 10) then
      some { cls := word16 b o, km := nat32 b (o + 2), rlo := nat32 b (o + 6), rhi := nat32 b (o + 10),
             confirm := (byteAt b (o + 14)).getLsbD 0, channels := cs }
    else none

/-- The profiles of the enabled sockets, when each lies within its values (R183 check 6); the others are not checked and
not held. -/
def readProfiles (b : List Byte) (enable : Quad Bool) : Option (Quad (Option Profile)) :=
  sequence4 fun s =>
    if enable.get s then (readProfile b (19 + 51 * s.val)).map some else some none

def stepKind (n : Nat) : Option StepKind :=
  match n with
  | 0 => some .accuracy
  | 1 => some .creep
  | 2 => some .start
  | _ => none

/-- The adjust channel a code names: 0xFF is none (R199). -/
def adjustChannel (code : Byte) : Option Channel := if h : code.toNat < 4 then some ⟨code.toNat, h⟩ else none

/-- R186, adjust channel: none, or a channel whose mode is not OFF in every enabled socket's profile. DEDUCED (log 54): another
code makes the slot unusable with no enabled socket too (R199); that the condition then holds for every step (R186) is read as
said of the profiles. -/
def adjustUsable (profiles : Quad (Option Profile)) (code : Byte) : Bool :=
  code == 0xFF ||
    match adjustChannel code with
    | none => false
    | some c => profiles.toList.all fun p =>
        match p with
        | none => true
        | some p => (p.channels.get c).mode != .off

/-- R186: the conditions of one step record. -/
def stepUsable (profiles : Quad (Option Profile)) (r : StepRecord) : Bool :=
  within 100 60000 r.settle &&
    match r.kind with
    | .accuracy =>
      within 1 1000 r.n && within 1 8 r.s && decide (-999999 ≤ r.lower ∧ r.lower ≤ 0 ∧ 0 ≤ r.upper ∧ r.upper ≤ 999999)
        && decide (r.spread ≤ 1999998) && within 1 4 r.attempts && within 1 600 r.gateTimeout
        && adjustUsable profiles r.adjust
    | _ => within 1 3600 r.w

/-- A step record as stored; nothing for a kind code above 2. -/
def readStep (b : List Byte) (o : Nat) : Option StepRecord :=
  (stepKind (natAt b o)).map fun k =>
    { kind := k, loadPoint := byteAt b (o + 1), n := nat16 b (o + 2), s := natAt b (o + 4), lower := int32 b (o + 5),
      upper := int32 b (o + 9), spread := nat32 b (o + 13), attempts := natAt b (o + 17), adjust := byteAt b (o + 18),
      settle := nat16 b (o + 19), gateTimeout := nat16 b (o + 21), w := nat16 b (o + 23) }

/-- The step records from number `i` on, `n` of them, when each is usable. -/
def readSteps (profiles : Quad (Option Profile)) (b : List Byte) (slot : Nat) : Nat → Nat → Option (List StepRecord)
  | _, 0 => some []
  | i, n + 1 =>
    match readStep b (slot + 5 + 25 * i), readSteps profiles b slot (i + 1) n with
    | some r, some rs => if stepUsable profiles r then some (r :: rs) else none
    | _, _ => none

/-- R187: the bytes the fingerprint covers. -/
def fingerprintBytes (b : List Byte) (slot count : Nat) : List Byte := (b.drop slot).take (5 + 25 * count)

/-- R186: the slot, when usable. -/
def readSlot (profiles : Quad (Option Profile)) (b : List Byte) (slot : Nat) : Option RunTable :=
  let count := natAt b (slot + 4)
  if within 1 2000000000 (nat32 b slot) ∧ within 1 24 count then
    (readSteps profiles b slot 0 count).map fun rs =>
      { kr := nat32 b slot, steps := rs, fingerprint := crc32 (fingerprintBytes b slot count) }
  else none

/-- What the checks of R183 find. -/
inductive Judgement where
  /-- A failed check, with the status it gives and whether the attempt is repeated. -/
  | fails (status : ConfigStatus) (again : Bool)
  | passes (station : StationSection) (profiles : Quad (Option Profile))
  deriving DecidableEq, Repr

/-- R183, the checks in order. The check code covers every byte after the header, so an image that is not there to its last
byte fails check 4 (log 24). -/
def judgeImage (answer : Option (List Byte)) : Judgement :=
  match answer with
  | none => .fails .noStore true
  | some b =>
    if word16 b 0 ≠ 0xA4C7 then .fails .badImage true
    else if nat16 b 2 ≠ Config.imageBytes then .fails .badImage true
    else if b.length < Config.imageBytes ∨ crc16 ((b.drop 6).take (Config.imageBytes - 6)) ≠ word16 b 4 then
      .fails .badImage true
    else
      match readStation b 6 with
      | none => .fails .badImage false
      | some st =>
        match readProfiles b st.enable with
        | none => .fails .badImage false
        | some ps => .passes st ps

end Sys2Proof.Machine
end

