-- ==== Sys2Proof/WellFormed.lean ====
section
/-! DEFINITION. Which commands the outside can send: bounds the formats of chapter 11 set on the bytes a command carries.
The machine gives every command a meaning; a command outside these bounds is one no hardware event spells. -/

namespace Sys2Proof

/-- The longest link frame followed to its declared end: six bytes and a body of 255 (R38, R196). -/
def maxFrameBytes : Nat := 261

/-- The longest reply: start, order code, status, length, a body of 255, check code (R198). -/
def maxReplyBytes : Nat := 260

/-- The number of bytes one read attempt yields: the header, and in all as many as the length it declares (R182). DESIGN
CHOICE (log 42): the declared length counts the header's six bytes. The manual's "as many further bytes as the image length"
can also be read as that many beyond the header. -/
def attemptBytes (bytes : List Byte) : Nat :=
  max 6 ((bytes.getD 2 0).toNat * 256 + (bytes.getD 3 0).toNat)

namespace Instr

/-- The form checks of one command. -/
def wellFormed : Instr → Bool
  | .frameEnd bytes => bytes.length ≤ maxFrameBytes
  | .readAttemptEnd (some bytes) => bytes.length == attemptBytes bytes
  | .replyReceived _ bytes => !bytes.isEmpty && bytes.length ≤ maxReplyBytes
  | .detectEnd _ r => r < 2 ^ 32
  | _ => true

end Instr

end Sys2Proof
end

