-- ==== Sys2Proof/Machine/Flags.lean ====
section
/-! DEFINITION. What is computed from the state and never stored: the configuration as the blocks read it, the flags and
levels the rules test, and the pins the station drives. -/

namespace Sys2Proof.Machine

/-- The port's report of the end of a write burst on a socket, with what is left of its pulse mask (R160). -/
def GcuMsg.maskLeft (s : Socket) : GcuMsg → Option Nat
  | .writeBurstEnd x left => if x = s then some left else none
  | .runOpened _ => none

namespace Station

/-! ### The configuration as read by the blocks -/

/-- R112: a socket is enabled when the image is usable and its enable mask sets it. -/
def enabled (st : Station) (s : Socket) : Bool :=
  match st.cfl.station with
  | some c => c.enable.get s
  | none => false

/-- R111. -/
def remap (st : Station) : Quad Position :=
  match st.cfl.station with
  | some c => c.remap
  | none => identityRemap

/-- The logical socket a physical position serves (R111). -/
def socketAt (st : Station) (p : Position) : Option Socket :=
  [0, 1, 2, 3].find? fun s => st.remap.get s == p

def shedRank (st : Station) (s : Socket) : Nat :=
  match st.cfl.station with
  | some c => c.shedRank.get s
  | none => 0

/-- The limit of a supervision timer (R125). -/
def supLimit (st : Station) (t : SupTimer) : Nat :=
  let c := st.cfl.station.getD .unusable
  match t with
  | .overburden => Config.tOvb c.tOvb
  | .openCircuit => Config.tOpen c.tOpen

/-- The insertion window (R122). -/
def insertionMs (st : Station) : Nat := Config.tIns (st.cfl.station.getD .unusable).tIns

def verifyWrites (st : Station) : Bool := (st.cfl.station.getD .unusable).verifyWrites

def profile (st : Station) (s : Socket) : Option Profile := st.cfl.profiles.get s

/-- The run table of a slot, when usable (R186). -/
def table (st : Station) (slot : Fin 2) : Option RunTable :=
  match slot with
  | 0 => st.cfl.slotA
  | 1 => st.cfl.slotB

/-- A step record that stands where no table holds one; no run reaches it. -/
def blankStep : StepRecord :=
  { kind := .accuracy, loadPoint := 0, n := 0, s := 0, lower := 0, upper := 0, spread := 0, attempts := 0,
    adjust := 0xFF, settle := 0, gateTimeout := 0, w := 0 }

/-- The station's own record for a step, in the run's table slot (R71). DEDUCED (log 15): the run is the one the STC is at, so
the record stays that run's when the mirror has accepted a next RUN_OPEN and the STC has yet to take the old run's end. -/
def stepRec (st : Station) (k : Nat) : StepRecord :=
  match st.table st.stc.slot with
  | some t => t.steps.getD k blankStep
  | none => blankStep

/-- The record of the step the STC is at (R71). -/
def curStep (st : Station) : StepRecord := st.stepRec st.stc.step

/-- Kr of the run's table (R74), the run being the one the STC is at (log 15). -/
def runKr (st : Station) : Nat :=
  match st.table st.stc.slot with
  | some t => t.kr
  | none => 0

/-! ### Link flags -/

/-- Start-up has ended, so the LKC follows the medium (R181). -/
def started (st : Station) : Bool := st.cfl.stage == .running

/-- A station is synced once its mirror has accepted a RUN_OPEN; its header run number is then not 0 (R1, R15). -/
def synced (st : Station) : Bool := st.bmr.runNo != 0

/-- The frames in the inbound queue; markers take no frame space (R52). -/
def frameFill (q : List Entry) : Nat :=
  (q.filter fun e => match e with | .frame _ _ => true | _ => false).length

/-- The station drives the round-start mark: it is ACTIVE, its outbound queue holds an entry and the medium is FREE (R39,
R40, R42). In LISTEN and in MUTE it drives none (R39, R41). -/
def drivesRoundStart (st : Station) : Bool :=
  st.lkc.link == .active && st.lkc.medium == .free && !st.lkc.outbound.isEmpty

/-- The station marks the hold slot (R42). -/
def marksHold (st : Station) : Bool :=
  st.lkc.link != .listen && decide (Config.holdMarkFill ≤ frameFill st.lkc.inbound)

/-- The entry of the outbound queue at a place. -/
def entryAt (st : Station) (p : Place) : Option OutEntry := st.lkc.outbound.find? fun e => e.place == p

/-- The station marks the objection slot: a frame it judged failed a check, or readback stopped its own (R46, R49). -/
def marksObjection (st : Station) : Bool :=
  st.lkc.medium == .objection && (st.lkc.mark || (st.lkc.stopped && st.lkc.link != .listen))

/-- This station is driving the frame on the medium: its entry is on the wire and readback has not stopped it (R45, R49). -/
def driving (st : Station) : Bool := (st.entryAt .onWire).isSome && !st.lkc.stopped

/-! ### RDY (R73) -/

/-- A socket SETTLING or HELD keeps RDY low. -/
def holdsRdy (r : RunState) : Bool := r == .settling || r == .held

/-- The station's pull on RDY: held low while a socket is SETTLING or HELD, released from the mute notice on, and not driven
before the link state leaves LISTEN (R73, R87; log 16). -/
def rdyPull (st : Station) : Bool :=
  !st.stc.muted && st.lkc.link != .listen && st.stc.ctx.toList.any fun c => holdsRdy c.run

/-- The level of RDY as the STC reads it: high when last seen high and this station holds it no longer (R36, R92). -/
def rdyHigh (st : Station) : Bool := st.gcu.rdy && !st.rdyPull

/-! ### The pulse mask (R93, R94) -/

/-- The socket's pulse mask runs. It runs from the end of a write burst, also while the GCU has yet to take the port's report
of that end (R160; log 4). -/
def masked (st : Station) (s : Socket) : Bool :=
  (st.gcu.sockets.get s).mask.isSome || st.gcu.inbox.any fun m => (m.maskLeft s).isSome

/-! ### Channels (R135) -/

def channel (st : Station) (s : Socket) (c : Channel) : Option ChannelRec :=
  (st.cru.sockets.get s).table.map fun t => t.get c

/-- R135: yes for AUTO and ONCE, no for OFF, FIXED and an absent channel. -/
def adjustable (st : Station) (s : Socket) (c : Channel) : Bool :=
  match st.channel s c with
  | some r => r.mode == .auto || r.mode == .once
  | none => false

/-- Any channel of the socket carries an unverified mark (R143). -/
def anyMark (st : Station) (s : Socket) : Bool :=
  match (st.cru.sockets.get s).table with
  | some t => t.toList.any fun r => r.mark
  | none => false

/-! ### Probe results -/

/-- R115. -/
def usableProbe (p : Option ProbeResult) : Bool :=
  match p with
  | some r => r.detect == .valid && r.ident == some .ok && decide (r.age ≤ Config.usableAgeMs)
  | none => false

/-! ### Pins -/

/-- R109: the relay is energised, and the shunt open, in INSERTING and INSERTED. -/
def shuntOpenIn (i : Insertion) : Bool := i == .inserting || i == .inserted

/-- The shunt driver of a physical position: true energises the relay, which opens the shunt (R109, R111). -/
def shuntDriver (st : Station) (p : Position) : Bool :=
  match st.socketAt p with
  | some s => shuntOpenIn (st.inc.sockets.get s).state
  | none => false

/-- R194. -/
inductive Lamp where
  | off
  | steady
  | slowFlash
  | fastFlash
  deriving DecidableEq, Repr

/-- R194, the checks in order. -/
def lamp (st : Station) (s : Socket) : Lamp :=
  let c := st.stc.ctx.get s
  let i := st.inc.sockets.get s
  if !st.enabled s then .off
  else if c.run = .sealed then .slowFlash
  else if (c.run = .out ∧ c.outCause ≠ some .aborted) ∨
      (c.run = .idle ∧ i.joinFault ≠ .none ∧ i.joinFault ≠ .disabled) then .fastFlash
  else if shuntOpenIn i.state then .steady
  else if c.run = .done ∨ c.run.inSealing then .steady
  else .off

/-- R195: slow flash 500 ms lit and 500 ms dark, fast flash 125 ms lit and 125 ms dark, on the shared timer's phase. -/
def litIn (phase : Fin 8) : Lamp → Bool
  | .off => false
  | .steady => true
  | .slowFlash => decide (phase.val < 4)
  | .fastFlash => decide (phase.val % 2 = 0)

/-- The lamp output of a physical position (R111, R194, R195). -/
def lampOutput (st : Station) (p : Position) : Bool :=
  match st.socketAt p with
  | some s => litIn st.rpu.lampPhase (st.lamp s)
  | none => false

/-- The order frame a port is transmitting, if any (R150). -/
def transmitting (p : Port) : Option (List Byte) :=
  match p.running with
  | some r => if r.stage = .sending then some r.order.encode else none
  | none => none

/-- What stands on a physical position's MTX: the order frame of its socket's port, or the stop level (R111, R149, R150). -/
def meterTx (st : Station) (p : Position) : Option (List Byte) :=
  match st.socketAt p with
  | some s => transmitting (st.mpc.ports.get s)
  | none => none

/-- A part of a transfer on the store's I2C line, as the CFL makes it (R182). -/
inductive StorePart where
  /-- A start condition, or a repeated one. -/
  | start
  | address (a : BitVec 7) (read : Bool)
  | write (b : Byte)
  /-- A byte the store sends, and whether the CFL acknowledges it. -/
  | read (acknowledged : Bool)
  | stop
  deriving DecidableEq, Repr

/-- The transfer of a read attempt that yields n bytes (R182). -/
def storeTransfer (n : Nat) : List StorePart :=
  [.start, .address 0x53 false, .write 0, .write 0, .start, .address 0x53 true] ++
    List.replicate (n - 1) (.read true) ++ [.read false, .stop]

/-- What the CFL makes of SCL and SDA when the store answers with these bytes: the transfer of the attempt in progress, or
nothing, the lines released (R179, R182). -/
def storeLines (st : Station) (answer : List Byte) : Option (List StorePart) :=
  if st.cfl.stage = .reading then some (storeTransfer (attemptBytes answer)) else none

/-! ### The mirror's sets of entries -/

/-- The roster entry of a bench position (R5). -/
def entryOf (m : Mirror) (i : Nat) : RosterEntry := m.roster.getD i .absent

/-- The roster index of one of this station's sockets (R5). -/
def rosterIndex (st : Station) (s : Socket) : Nat := st.cfl.node.val * 4 + s.val

/-- The roster entry of one of this station's sockets. -/
def ownEntry (st : Station) (s : Socket) : RosterEntry := entryOf st.bmr (st.rosterIndex s)

/-- The local out cause that a roster entry gives: its own out cause; LATE for an ABSENT entry (R89); for an entry in the
run that carries none the manual states no value, and it is a free one (R85, R164, R165, R176; log 14). -/
def rosterCause (st : Station) (s : Socket) : OutCause :=
  match (st.ownEntry s).out with
  | some c => c
  | none =>
    if (st.ownEntry s).state = .absent then .late
    else OutCause.nth (Config.unstatedOutCause st.bmr.runNo st.cfl.node s)

end Station

end Sys2Proof.Machine
end

