-- ==== Sys2Proof/Machine/Ops.lean ====
section
/-! DEFINITION. The operations the commands share: updating one socket's part of a block, telling a block something and
taking what it was told, the outbound queue, windows, shunts, bursts, FLT. -/

namespace Sys2Proof.Machine

/-! ### Running a command -/

/-- A command's effect on the station. Under power-on reset no event reaches a block (R179), so the station stays. -/
def State.run (s : State) (f : Station → Station) : Answer :=
  .next { s with st := if s.st.cfl.stage = .inReset then s.st else f s.st }

namespace Timer

/-- A millisecond passes; the expiry is a command of its own, so a running timer stays running (log 2). -/
def tick : Timer → Timer
  | none => none
  | some n => some (max 1 (n - 1))

/-- The timer has run out: it stands at 1 until its expiry comes (log 2). An expiry that finds its timer started anew is
none. -/
def ranOut : Timer → Bool
  | none => false
  | some n => n ≤ 1

end Timer

/-! ### Taking from an inbox -/

/-- The oldest message that `pick` accepts, with the messages left. A message that `holds` accepts is not overtaken. -/
def takeFirst {α β : Type} (pick : α → Option β) (holds : α → Bool) : List α → Option (β × List α)
  | [] => none
  | a :: as =>
    match pick a with
    | some b => some (b, as)
    | none =>
      if holds a then none
      else
        match takeFirst pick holds as with
        | some (b, r) => some (b, a :: r)
        | none => none

/-- The run-opened notice, at each block that takes it by a row of its own (R34). -/
def StcMsg.isRunOpened : StcMsg → Bool
  | .runOpened _ => true
  | _ => false

def IncMsg.isRunOpened : IncMsg → Bool
  | .runOpened .. => true
  | _ => false

def CruMsg.isRunOpened : CruMsg → Bool
  | .runOpened _ => true
  | _ => false

def SluMsg.isRunOpened : SluMsg → Bool
  | .runOpened _ => true
  | _ => false

/-- The notices of the Bench Mirror to the STC keep their order (R34). -/
def StcMsg.isNotice : StcMsg → Bool
  | .runOpened _ => true
  | .tableRefusal .. => true
  | .ownJoin .. => true
  | .loadSet .. => true
  | .disturbance => true
  | .stepComplete .. => true
  | .paused => true
  | .resumed => true
  | .ended _ => true
  | .joinOutcome .. => false
  | .bypass .. => false
  | .accuracyEnd .. => false
  | .timedEnd .. => false
  | .maskEnd _ => false
  | .adjusted .. => false
  | .mute => false

/-- A block and the socket its reports to the STC are about. -/
inductive ReportLine where
  | gcu (s : Socket)
  | inc (s : Socket)
  | cru (s : Socket)
  deriving DecidableEq, Repr

/-- The line a report to the STC belongs to. -/
def StcMsg.line : StcMsg → Option ReportLine
  | .joinOutcome s _ => some (.inc s)
  | .bypass s _ => some (.inc s)
  | .accuracyEnd s _ => some (.gcu s)
  | .timedEnd s _ _ => some (.gcu s)
  | .maskEnd s => some (.gcu s)
  | .adjusted s _ => some (.cru s)
  | _ => none

/-- How a window ended, as the GCU reports it: an accuracy window with its report (R103), a creep or start window with its
outcome (R106, R107). -/
inductive WindowEnd where
  | accuracy (r : WindowReport)
  | timed (v : Verdict)
  deriving DecidableEq, Repr

/-- The end report of a socket's window. -/
def StcMsg.windowEnd (s : Socket) : StcMsg → Option WindowEnd
  | .accuracyEnd x r => if x = s then some (.accuracy r) else none
  | .timedEnd x v _ => if x = s then some (.timed v) else none
  | _ => none

/-- The end report of any socket's window. -/
def StcMsg.isWindowEnd : StcMsg → Bool
  | .accuracyEnd .. => true
  | .timedEnd .. => true
  | _ => false

/-- The notices of the Bench Mirror to the INC keep their order (R34). -/
def IncMsg.isNotice : IncMsg → Bool
  | .startUpEnd => true
  | .runOpened .. => true
  | .shed _ => true
  | .ended _ => true
  | .probeEnd .. => false
  | .presetOutcome .. => false
  | .verifyFail _ => false

/-- The notices of the Bench Mirror to the SLU keep their order (R34). -/
def SluMsg.isNotice : SluMsg → Bool
  | .runOpened _ => true
  | .ended _ => true
  | .ownClaim .. => true
  | .assignment .. => true
  | .handOver _ => false
  | .verification .. => false
  | .burstEnd .. => false

namespace Station

/-! ### One socket's part of a block -/

def ctx (st : Station) (s : Socket) : RunCtx := st.stc.ctx.get s

def modCtx (st : Station) (s : Socket) (f : RunCtx → RunCtx) : Station :=
  { st with stc := { st.stc with ctx := st.stc.ctx.set s (f (st.stc.ctx.get s)) } }

def incSocket (st : Station) (s : Socket) : IncSocket := st.inc.sockets.get s

def modInc (st : Station) (s : Socket) (f : IncSocket → IncSocket) : Station :=
  { st with inc := { st.inc with sockets := st.inc.sockets.set s (f (st.inc.sockets.get s)) } }

def gcuSocket (st : Station) (s : Socket) : GcuSocket := st.gcu.sockets.get s

def modGcu (st : Station) (s : Socket) (f : GcuSocket → GcuSocket) : Station :=
  { st with gcu := { st.gcu with sockets := st.gcu.sockets.set s (f (st.gcu.sockets.get s)) } }

def cruSocket (st : Station) (s : Socket) : CruSocket := st.cru.sockets.get s

def modCru (st : Station) (s : Socket) (f : CruSocket → CruSocket) : Station :=
  { st with cru := { st.cru with sockets := st.cru.sockets.set s (f (st.cru.sockets.get s)) } }

def port (st : Station) (s : Socket) : Port := st.mpc.ports.get s

def modPort (st : Station) (s : Socket) (f : Port → Port) : Station :=
  { st with mpc := { st.mpc with ports := st.mpc.ports.set s (f (st.mpc.ports.get s)) } }

def sluSocket (st : Station) (s : Socket) : SluSocket := st.slu.sockets.get s

def modSlu (st : Station) (s : Socket) (f : SluSocket → SluSocket) : Station :=
  { st with slu := { st.slu with sockets := st.slu.sockets.set s (f (st.slu.sockets.get s)) } }

/-- An event on a physical position's lines reaches the logical socket that the remap ties to the position (R111). -/
def atPosition (st : Station) (p : Position) (f : Socket → Station → Station) : Station :=
  match st.socketAt p with
  | some s => f s st
  | none => st

/-- Socket by socket in logical order 0..3. -/
def each (f : Socket → Station → Station) (st : Station) : Station := f 3 (f 2 (f 1 (f 0 st)))

/-! ### Telling a block -/

def tellStc (st : Station) (m : StcMsg) : Station := { st with stc := { st.stc with inbox := st.stc.inbox ++ [m] } }

def tellGcu (st : Station) (m : GcuMsg) : Station := { st with gcu := { st.gcu with inbox := st.gcu.inbox ++ [m] } }

def tellInc (st : Station) (m : IncMsg) : Station := { st with inc := { st.inc with inbox := st.inc.inbox ++ [m] } }

def tellCru (st : Station) (m : CruMsg) : Station := { st with cru := { st.cru with inbox := st.cru.inbox ++ [m] } }

def tellMpc (st : Station) (m : MpcMsg) : Station := { st with mpc := { st.mpc with inbox := st.mpc.inbox ++ [m] } }

def tellSlu (st : Station) (m : SluMsg) : Station := { st with slu := { st.slu with inbox := st.slu.inbox ++ [m] } }

/-! ### A block takes what it was told. With nothing of the kind to take, nothing happens (log 1, log 4). -/

/-- The STC takes a notice of the BMR: the notices keep their order. -/
def stcNotice {β : Type} (st : Station) (pick : StcMsg → Option β) (f : β → Station → Station) : Station :=
  match takeFirst pick StcMsg.isNotice st.stc.inbox with
  | some (b, r) => f b { st with stc := { st.stc with inbox := r } }
  | none => st

/-- The STC takes a report: reports of different blocks or sockets may be taken in either order, those of one block about
one socket in the order given, and none across a run-opened notice. -/
def stcReport {β : Type} (st : Station) (line : Option ReportLine) (pick : StcMsg → Option β)
    (f : β → Station → Station) : Station :=
  match takeFirst pick (fun m => m.isRunOpened || (line.isSome && m.line == line)) st.stc.inbox with
  | some (b, r) => f b { st with stc := { st.stc with inbox := r } }
  | none => st

/-- The INC takes a notice. -/
def incNotice {β : Type} (st : Station) (pick : IncMsg → Option β) (f : β → Station → Station) : Station :=
  match takeFirst pick IncMsg.isNotice st.inc.inbox with
  | some (b, r) => f b { st with inc := { st.inc with inbox := r } }
  | none => st

/-- The INC takes a report. -/
def incReport {β : Type} (st : Station) (pick : IncMsg → Option β) (f : β → Station → Station) : Station :=
  match takeFirst pick IncMsg.isRunOpened st.inc.inbox with
  | some (b, r) => f b { st with inc := { st.inc with inbox := r } }
  | none => st

/-- The end of a burst on a socket, as reported to the CRU. -/
def isBurstEnd (s : Socket) : CruMsg → Bool
  | .burstEnd x _ => x == s
  | _ => false

/-- The CRU takes a request or a report. -/
def cruReport {β : Type} (st : Station) (pick : CruMsg → Option β) (f : β → Station → Station) : Station :=
  match takeFirst pick CruMsg.isRunOpened st.cru.inbox with
  | some (b, r) => f b { st with cru := { st.cru with inbox := r } }
  | none => st

/-- The SLU takes a notice. -/
def sluNotice {β : Type} (st : Station) (pick : SluMsg → Option β) (f : β → Station → Station) : Station :=
  match takeFirst pick SluMsg.isNotice st.slu.inbox with
  | some (b, r) => f b { st with slu := { st.slu with inbox := r } }
  | none => st

/-- The SLU takes a hand-over or a report. -/
def sluReport {β : Type} (st : Station) (pick : SluMsg → Option β) (f : β → Station → Station) : Station :=
  match takeFirst pick SluMsg.isRunOpened st.slu.inbox with
  | some (b, r) => f b { st with slu := { st.slu with inbox := r } }
  | none => st

/-- The STC takes the run-opened notice when all it was told before is taken. -/
def stcRunOpenedNotice (st : Station) (f : RunHeader → Station → Station) : Station :=
  match st.stc.inbox with
  | .runOpened h :: r => f h { st with stc := { st.stc with inbox := r } }
  | _ => st

/-- The INC takes the run-opened notice when all it was told before is taken, with the late ends asked for since. -/
def incRunOpenedNotice (st : Station) (f : Quad Bool → Station → Station) : Station :=
  match st.inc.inbox with
  | .runOpened _ late :: r => f late { st with inc := { st.inc with inbox := r } }
  | _ => st

/-- The CRU takes the run-opened notice when all it was told before is taken. -/
def cruRunOpenedNotice (st : Station) (f : Station → Station) : Station :=
  match st.cru.inbox with
  | .runOpened _ :: r => f { st with cru := { st.cru with inbox := r } }
  | _ => st

/-- The SLU takes the run-opened notice when all it was told before is taken. -/
def sluRunOpenedNotice (st : Station) (f : Station → Station) : Station :=
  match st.slu.inbox with
  | .runOpened _ :: r => f { st with slu := { st.slu with inbox := r } }
  | _ => st

/-! ### The outbound queue (R54 to R56) -/

/-- BYPASS entries are urgent (R54). -/
def urgentBody : Body → Bool
  | .bypass .. => true
  | _ => false

def newEntry (run : Byte) (body : Body) : OutEntry :=
  { run := run, body := body, place := .queued, withdrawn := false, counted := false }

/-- Urgent entries stand ahead of all ordinary ones, and each class keeps its order (R54). -/
def insertEntry (q : List OutEntry) (e : OutEntry) : List OutEntry :=
  if urgentBody e.body then
    q.takeWhile (fun x => urgentBody x.body) ++ e :: q.dropWhile (fun x => urgentBody x.body)
  else q ++ [e]

/-- A block places a complete frame (R55). -/
def placeFrame (st : Station) (run : Byte) (body : Body) : Station :=
  { st with lkc := { st.lkc with outbound := insertEntry st.lkc.outbound (newEntry run body) } }

def isJoin : Body → Bool
  | .join .. => true
  | _ => false

/-- ANNOUNCE and JOIN share the announce place (R55). -/
def inAnnouncePlace : Body → Bool
  | .announce .. => true
  | .join .. => true
  | _ => false

def isState : Body → Bool
  | .state _ => true
  | _ => false

def isVerdictOf (s : Socket) : Body → Bool
  | .verdict b .. => b == codeOf s.val
  | _ => false

/-- The rows of R55 for a JOIN offered. DESIGN CHOICE (log 37): a JOIN that replaces one which is the candidate of a running
round takes over its candidacy. The manual has the new JOIN stand in the old one's place and does not say which of the two
the round sends. DESIGN CHOICE (log 40): a JOIN that was deferred behind one on the wire stays deferred when that one is
objected back to the queue and a third JOIN replaces it there, and is placed when the third has left. The manual does not say
what becomes of the older one. -/
def placeJoin (st : Station) (run : Byte) (body : Body) : Station :=
  match st.lkc.outbound.find? (fun e => inAnnouncePlace e.body) with
  | none => st.placeFrame run body
  | some e =>
    if isJoin e.body ∧ e.place ≠ .onWire then
      { st with lkc := { st.lkc with
        outbound := st.lkc.outbound.map fun x =>
          if inAnnouncePlace x.body then { newEntry run body with place := x.place } else x } }
    else { st with lkc := { st.lkc with deferredJoin := some (newEntry run body) } }

/-- The deferred JOIN is placed when the announce place has become free (R55). -/
def placeDeferredJoin (st : Station) : Station :=
  match st.lkc.deferredJoin with
  | some e => { st with lkc := { st.lkc with outbound := insertEntry st.lkc.outbound e, deferredJoin := none } }
  | none => st

/-- R56: a queued VERDICT is removed at once; one that is a candidate or on the wire keeps the withdrawal pending. -/
def withdrawVerdict (st : Station) (s : Socket) : Station :=
  { st with lkc := { st.lkc with
    outbound := st.lkc.outbound.filterMap fun e =>
      if isVerdictOf s e.body then
        (if e.place = .queued then none else some { e with withdrawn := true })
      else some e } }

/-- Entries at a place return to the queue; one whose withdrawal is pending is removed instead (R45, R56, R58). -/
def returnEntries (p : Place) (q : List OutEntry) : List OutEntry :=
  q.filterMap fun e =>
    if e.place = p then (if e.withdrawn then none else some { e with place := .queued }) else some e

/-! ### FLT and MUTE (R41, R59) -/

/-- The station asserts FLT for 10 ms, restarting a running assertion, and the RPU records the cause (R59, R193). -/
def assertFlt (st : Station) (c : OwnFault) : Station :=
  if st.lkc.link = .listen then st
  else { st with lkc := { st.lkc with ownFlt := some Config.fltAssertMs }, rpu := { st.rpu with ownFault := c } }

/-- R41: FLT is asserted, the mute notice goes to the STC and to the RPU (log 44), and from the link state MUTE on the station
drives no round-start mark and marks no urgent or ordinary slot. -/
def enterMute (st : Station) (c : OwnFault) : Station :=
  let st1 := st.assertFlt c
  { st1 with lkc := { st1.lkc with link := .mute }, rpu := { st1.rpu with muted := true } }.tellStc .mute

/-! ### Windows at the GCU (R96, R105) -/

/-- The window record a step opens with (R74, R96). -/
def windowFor (r : StepRecord) (km kr : Nat) : Window :=
  match r.kind with
  | .accuracy =>
    .accuracy { n := r.n, s := r.s, timeoutMs := r.gateTimeout * 1000, km := km, kr := kr } none (r.gateTimeout * 1000)
  | .creep => .creep r.w (r.w * 1000) 0
  | .start => .start r.w (r.w * 1000) 0

def profileKm (st : Station) (s : Socket) : Nat :=
  match st.profile s with
  | some p => p.km
  | none => 0

/-- The GCU opens a socket's window with the current step's parameters and empties its sample list (R96). -/
def openWindow (st : Station) (s : Socket) : Station :=
  st.modGcu s fun g => { g with window := windowFor st.curStep (st.profileKm s) st.runKr, samples := [] }

/-- R105: an open window is dropped with its samples, and nothing is reported for it. A window that has ended is left as it
stands, its list and its report with it: the STC evaluates it (takeEnded in Steps.lean). -/
def voidWindow (st : Station) (s : Socket) : Station :=
  st.modGcu s fun g => if g.window = .none then g else { g with window := .none, samples := [] }

/-! ### Shunts (R110) -/

/-- A close request: the shunt closes without cool-down, the timers are cleared (R110). DESIGN CHOICE (log 48): the request acts on
the INC as it stands, also where the INC is already at a later run than the STC. The manual does not say. -/
def closeShunt (st : Station) (s : Socket) : Station :=
  st.modInc s fun i =>
    if shuntOpenIn i.state then
      { i with state := .bypassed, window := none, join := .none, overburden := .zero, openCircuit := .zero }
    else i

/-- Once the run has opened, only a socket with the outcome NONE takes LATE or INSERT_FAIL (R119). -/
def lateFault (c : JoinFault) (i : IncSocket) : IncSocket := if i.joinFault = .none then { i with joinFault := c } else i

/-- The run-opened notices that the STC has yet to take. -/
def stcToOpen (st : Station) : Nat := st.stc.inbox.countP StcMsg.isRunOpened

/-- The run-opened notices that the INC has yet to take. -/
def incToOpen (st : Station) : Nat := st.inc.inbox.countP IncMsg.isRunOpened

/-- The STC runs ahead (R34): the INC has yet to take the run-opened notice of the run the STC is at, so the joins of that run
have not begun. -/
def joinsToBegin (st : Station) : Bool := decide (st.stcToOpen < st.incToOpen)

/-- The late end of a socket's join stands with the run-opened notice that has `ahead` more behind it. -/
def keepLate (s : Socket) (ahead : Nat) : List IncMsg → List IncMsg
  | [] => []
  | .runOpened h late :: r =>
    if r.countP IncMsg.isRunOpened = ahead then .runOpened h (late.set s true) :: r
    else .runOpened h late :: keepLate s ahead r
  | m :: r => m :: keepLate s ahead r

/-- A late end asked for before the INC has taken the run-opened notice of the STC's run is kept with that notice. -/
def keepLateEnd (st : Station) (s : Socket) : Station :=
  { st with inc := { st.inc with inbox := keepLate s st.stcToOpen st.inc.inbox } }

/-- R70, R124: the INC ends the join at the point it has reached; the join fault becomes LATE. A join that has not begun stands
at the outcome NONE, and its late end waits with its run-opened notice, so that it does not begin and its shunt is not opened
(openJoin in Insertion.lean; log 48). DESIGN CHOICE (log 48): where the INC is already at a later run than the STC, the request
acts on the INC as it stands. The manual does not say. -/
def endJoinLate (st : Station) (s : Socket) : Station :=
  ((st.keepLateEnd s).closeShunt s).modInc s fun i =>
    lateFault .late { i with join := .none, joinFault := if st.joinsToBegin then .none else i.joinFault }

/-! ### BYPASS (R128) -/

/-- The step field of a BYPASS placed now (R128, R197). -/
def bypassStep (st : Station) : Byte :=
  match st.bmr.phase, st.bmr.step with
  | .stepping, some k => codeOf k
  | _, _ => 0xFF

/-- The INC places a BYPASS for a socket (R128). -/
def placeBypass (st : Station) (s : Socket) (c : OutCause) : Station :=
  st.placeFrame st.bmr.runNo (.bypass (codeOf s.val) c.code st.bypassStep)

/-! ### Bursts (R155, R157) -/

/-- A requester asks the port for a burst; the port takes the request in a step of its own. The burst's number is
`nextBurst`. -/
def requestBurst (st : Station) (s : Socket) (k : BurstKind) (first : Order) (rest : List Order) : Station :=
  { st with mpc := { st.mpc with
    nextBurst := st.mpc.nextBurst + 1,
    inbox := st.mpc.inbox ++ [.request s { id := st.mpc.nextBurst, kind := k, first := first, rest := rest }] } }

end Station

/-! ### Run contexts -/

namespace RunCtx

/-- The socket enters SETTLING with its settle timer running (R71, R75, R76, R78, R88). -/
def toSettling (ms : Nat) (c : RunCtx) : RunCtx :=
  { c with run := .settling, settle := some ms, settlePeriod := some ms, waitMask := false, disturbed := false }

/-- The socket becomes HELD, its settle timer stopped (R71, R75, R78, R88). -/
def toHeld (c : RunCtx) : RunCtx :=
  { c with run := .held, settle := none, settlePeriod := none, waitMask := false, disturbed := false }

/-- The socket becomes READY (R72). -/
def toReady (c : RunCtx) : RunCtx :=
  { c with run := .ready, settle := none, settlePeriod := none, waitMask := false }

/-- The socket goes OUT with a local out cause (R62, R63). -/
def toOut (cause : OutCause) (c : RunCtx) : RunCtx :=
  { c with run := .out, outCause := some cause, settle := none, settlePeriod := none, waitMask := false }

/-- The socket becomes IDLE (R67, R69, R70). -/
def toIdle (c : RunCtx) : RunCtx := { c with run := .idle }

/-- A socket in STEP_DONE with a PASS verdict (R71, R84). -/
def passed (c : RunCtx) : Bool :=
  match c.verdicts.getLast? with
  | some r => c.run == .stepDone && r.verdict == .pass
  | none => false

/-- A socket in STEP_DONE with a final FAIL (R84, R89). -/
def failed (c : RunCtx) : Bool := c.run == .stepDone && !c.passed

end RunCtx

/-- n raised by 1, saturating (R116, R126, R193). -/
def satSucc (limit n : Nat) : Nat := if n < limit then n + 1 else n

end Sys2Proof.Machine
end

