-- ==== Sys2Proof/Machine/Gates.lean ====
section
/-! DEFINITION. The Gate Counter Unit (chapter 4): the running count, gates and samples, creep and start windows, the pulse
mask. -/

namespace Sys2Proof.Machine

/-! ### The error of a gate (R100, R101) -/

/-- num / den for a positive den, rounded to the nearest integer, half away from zero (00_scope.md 4.1). -/
def roundHalfAway (num : Int) (den : Nat) : Int :=
  let q : Int := ((2 * num.natAbs + den) / (2 * den) : Nat)
  if num < 0 then -q else q

/-- The sample of a gate with count C (R100, R101). -/
def gateSample (p : GateParams) (gate : Nat) (c : W32) : Sample :=
  let den := c.toNat * p.km
  if den = 0 then { gate := gate, count := some c, error := Config.errorMax, status := .overRange }
  else
    let e := roundHalfAway (1000000 * ((p.n * p.kr : Nat) - (den : Nat) : Int)) den
    if Config.errorMax < e then { gate := gate, count := some c, error := Config.errorMax, status := .overRange }
    else if e < -Config.errorMax then { gate := gate, count := some c, error := -Config.errorMax, status := .overRange }
    else { gate := gate, count := some c, error := e, status := .ok }

/-- The NO_PULSE sample of a gate that timed out (R102). -/
def noPulseSample (gate : Nat) : Sample := { gate := gate, count := none, error := 0, status := .noPulse }

/-! ### Mean and spread (R103) -/

/-- The errors of the samples whose status is OK. -/
def okErrors (l : List Sample) : List Int := (l.filter fun x => x.status == .ok).map Sample.error

def meanOf (l : List Int) : Int := if l.isEmpty then 0 else roundHalfAway l.sum l.length

def spreadOf : List Int → Nat
  | [] => 0
  | e :: l => (l.foldl max e - l.foldl min e).toNat

/-- The report of an accuracy window that ended (R103). -/
def windowReport (timedOut : Bool) (l : List Sample) : WindowReport :=
  { timedOut := timedOut, samples := l, mean := meanOf (okErrors l), spread := spreadOf (okErrors l) }

namespace Station

/-- REF_PULSE (R91): the running count rises by 1 and passes from its largest value to 0. -/
def refPulse (st : Station) : Station := { st with gcu := { st.gcu with refCount := st.gcu.refCount + 1 } }

/-- An accuracy window closes and reports its end (R103); the sample list stays. -/
def endAccuracy (st : Station) (s : Socket) (timedOut : Bool) (l : List Sample) : Station :=
  (st.modGcu s fun g => { g with window := .none, samples := l }).tellStc (.accuracyEnd s (windowReport timedOut l))

/-- A creep or start window closes and reports its outcome (R106, R107). -/
def endTimed (st : Station) (s : Socket) (v : Verdict) (seen : Nat) : Station :=
  (st.modGcu s fun g => { g with window := .none }).tellStc (.timedEnd s v seen)

/-- A meter pulse in GATING (R98). -/
def gatePulse (st : Station) (s : Socket) (p : GateParams) (g : OpenGate) (timer : Nat) : Station :=
  if g.pulses + 1 < p.n then
    st.modGcu s fun x => { x with window := .accuracy p (some { g with pulses := g.pulses + 1 }) timer }
  else
    let l := (st.gcuSocket s).samples ++ [gateSample p g.number (st.gcu.refCount - g.openedAt)]
    if g.number < p.s then
      st.modGcu s fun x => { x with
        window := .accuracy p (some { number := g.number + 1, pulses := 0, openedAt := st.gcu.refCount }) p.timeoutMs,
        samples := l }
    else st.endAccuracy s false l

/-- A meter pulse reaches the socket's window (R90, R97, R98, R106, R107). -/
def pulseAt (st : Station) (s : Socket) : Station :=
  match (st.gcuSocket s).window with
  | .none => st
  | .accuracy p none timer =>
    st.modGcu s fun x => { x with
      window := .accuracy p (some { number := 1, pulses := 0, openedAt := st.gcu.refCount }) timer }
  | .accuracy p (some g) timer => st.gatePulse s p g timer
  | .creep w timer seen =>
    if seen = 0 then st.modGcu s fun x => { x with window := .creep w timer 1 } else st.endTimed s (.fail .creep) 2
  | .start _ _ _ => st.endTimed s .pass 1

/-- METER_PULSE (R90): the pulse is the logical socket's that the remap ties to the position; it is ignored while the
socket is disabled or its mask runs. -/
def meterPulse (p : Position) (st : Station) : Station :=
  match st.socketAt p with
  | some s => if st.enabled s ∧ st.masked s = false then st.pulseAt s else st
  | none => st

/-- GATE_TIMEOUT (R102): an expiry that finds the timer restarted for the next gate does nothing. -/
def gateTimeout (s : Socket) (st : Station) : Station :=
  match (st.gcuSocket s).window with
  | .accuracy _ g timer =>
    let number := match g with | some x => x.number | none => 1
    if timer ≤ 1 then st.endAccuracy s true ((st.gcuSocket s).samples ++ [noPulseSample number]) else st
  | _ => st

/-- CREEP_WINDOW_TIMER (R106). -/
def creepTimer (s : Socket) (st : Station) : Station :=
  match (st.gcuSocket s).window with
  | .creep _ _ seen => st.endTimed s .pass seen
  | _ => st

/-- START_WINDOW_TIMER (R107). -/
def startTimer (s : Socket) (st : Station) : Station :=
  match (st.gcuSocket s).window with
  | .start _ _ seen => st.endTimed s (.fail .noStart) seen
  | _ => st

/-- WRITE_BURST_END (R93): the mask starts, or starts again, so that it ends 500 ms after the burst's end, whenever the GCU
takes the report of it (R160). -/
def writeBurstEnd (s : Socket) (st : Station) : Station :=
  match takeFirst (GcuMsg.maskLeft s) (fun _ => false) st.gcu.inbox with
  | some (left, r) => { st with gcu := { st.gcu with inbox := r } }.modGcu s fun g => { g with mask := some left }
  | none => st

/-- PULSE_MASK_END (R94). A mask that a later write burst has restarted does not end here (R93). -/
def pulseMaskEnd (s : Socket) (st : Station) : Station :=
  if (st.gcuSocket s).mask.ranOut ∧ (st.gcu.inbox.any fun m => (m.maskLeft s).isSome) = false then
    (st.modGcu s fun g => { g with mask := none }).tellStc (.maskEnd s)
  else st

/-- GCU_RUN_OPENED (R108). DESIGN CHOICE (log 50): a window that the STC, running ahead (R34), has already opened in the new run
is dropped with its samples, and nothing is reported for it. R108 presumes that none is open. -/
def gcuRunOpened (st : Station) : Station :=
  match takeFirst (fun m => match m with | GcuMsg.runOpened _ => some () | _ => none) (fun _ => false) st.gcu.inbox with
  | some (_, r) =>
    { st with gcu := { st.gcu with
      inbox := r, sockets := st.gcu.sockets.map fun g => { g with window := .none, samples := [] } } }
  | none => st

end Station

/-- REF_PULSE (R91). -/
def execRefPulse (s : State) : Answer := s.run Station.refPulse
/-- METER_PULSE (R98). -/
def execMeterPulse (p : Position) (s : State) : Answer := s.run (Station.meterPulse p)
/-- GATE_TIMEOUT (R102). -/
def execGateTimeout (x : Socket) (s : State) : Answer := s.run (Station.gateTimeout x)
/-- CREEP_WINDOW_TIMER (R106). -/
def execCreepWindowTimer (x : Socket) (s : State) : Answer := s.run (Station.creepTimer x)
/-- START_WINDOW_TIMER (R107). -/
def execStartWindowTimer (x : Socket) (s : State) : Answer := s.run (Station.startTimer x)
/-- WRITE_BURST_END (R93). -/
def execWriteBurstEnd (x : Socket) (s : State) : Answer := s.run (Station.writeBurstEnd x)
/-- PULSE_MASK_END (R94). A mask that a later write burst has restarted does not end here (R93). -/
def execPulseMaskEnd (x : Socket) (s : State) : Answer := s.run (Station.pulseMaskEnd x)
/-- GCU_RUN_OPENED (R108). -/
def execGcuRunOpened (s : State) : Answer := s.run Station.gcuRunOpened

end Sys2Proof.Machine
end

