-- ==== Sys2Proof/Machine/Correction.lean ====
section
/-! DEFINITION. The Correction Unit (chapter 6): the channel tables, the preset burst, corrections and verification. -/

namespace Sys2Proof.Machine

/-! ### The channel table (R134, R136) -/

/-- A channel record as the profile describes it, the run not having touched it (R136). -/
def ChannelProfile.fresh (p : ChannelProfile) : ChannelRec :=
  { mode := p.mode, preset := p.preset, min := p.min, max := p.max, sensitivity := p.sensitivity, current := none,
    mark := false }

/-- R134, R136: a socket's table at power-on reset and at the run-opened notice. -/
def freshTable (p : Option Profile) : Option (Quad ChannelRec) := p.map fun x => x.channels.map ChannelProfile.fresh

/-- A change of one channel of a table. -/
def modChannel (t : Quad ChannelRec) (c : Channel) (f : ChannelRec → ChannelRec) : Quad ChannelRec := t.set c (f (t.get c))

/-! ### The preset burst (R137, R138) -/

/-- The orders a channel adds to the preset burst (R137). -/
def presetOrders (verifyWrites : Bool) (t : Quad ChannelRec) (c : Channel) : List Order :=
  match (t.get c).mode with
  | .off => []
  | .fixed => .writeCh c (t.get c).preset :: (if verifyWrites then [.readCh c] else [])
  | .auto => [.readCh c]
  | .once => [.readCh c]

/-- R137, check 1. -/
def presetLacks (t : Quad ChannelRec) (presence : Quad Bool) : Bool :=
  [0, 1, 2, 3].any fun c : Channel => (t.get c).mode != .off && !presence.get c

/-- A value within a channel's bounds (R139). -/
def inBounds (r : ChannelRec) (v : Int) : Bool := decide (r.min ≤ v) && decide (v ≤ r.max)

/-- R137, check 2. -/
def presetOutside (t : Quad ChannelRec) : Bool := t.toList.any fun r => r.mode == .fixed && !inBounds r r.preset

/-- The orders of the preset burst, channel by channel in id order (R137). -/
def presetBurst (verifyWrites : Bool) (t : Quad ChannelRec) : List Order :=
  [0, 1, 2, 3].flatMap (presetOrders verifyWrites t)

/-- What one record of a PRESET burst does to the table (R138, R143; log 32). -/
def presetRecord (t : Quad ChannelRec) (r : ExchangeRecord) : Quad ChannelRec :=
  match r.order, r.reply with
  | .writeCh c v, some .writeCh => modChannel t c fun x => { x with current := some v, mark := true }
  | .writeCh c _, _ => modChannel t c fun x => { x with current := none, mark := false }
  | .readCh c, some (.readCh v) => modChannel t c fun x => { x with current := some v, mark := false }
  | _, _ => t

/-- Every READ_CH that follows a WRITE_CH of its channel returned the value written (R138). -/
def readbacksAgree : List ExchangeRecord → Bool
  | a :: b :: rs =>
    (match a.order, b.order, b.reply with
      | .writeCh c v, .readCh d, some (.readCh w) => c != d || v == w
      | _, _, _ => true) && readbacksAgree (b :: rs)
  | _ => true

/-! ### Corrections (R139, R141, R142) -/

/-- Steps 1 and 2 of R139. -/
def correctionCounts (mean : Int) (sensitivity : Nat) : Int :=
  let c := roundHalfAway (-mean) sensitivity
  if c = 0 then (if 0 < mean then -1 else 1) else c

/-- What the ADJUST burst's records decide: the channel's current value and mark, and the outcome (R141, the checks in
order). -/
def judgeAdjust (r : ChannelRec) (v : Int) : List ExchangeRecord → Option Int × Bool × AdjustOutcome
  | [] => (r.current, r.mark, .svcFail)
  | w :: rest =>
    match w.outcome with
    | .locked => (r.current, r.mark, .locked)
    | .refused => (r.current, r.mark, .svcFail)
    | .badOrder => (r.current, r.mark, .svcFail)
    | .badCheck => (r.current, r.mark, .svcFail)
    | .timeout => (none, false, .svcFail)
    | .badReply => (none, false, .svcFail)
    | .ok =>
      match rest with
      | [] => (some v, true, .ok)
      | b :: _ =>
        if b.outcome = .locked then (some v, true, .locked)
        else
          match b.reply with
          | some (.readCh x) => if x = v then (some v, false, .ok) else (some x, false, .svcFail)
          | _ => (some v, true, .svcFail)

/-- R141, R142 on the channel's record. -/
def adjustedRec (r : ChannelRec) (v : Int) (rs : List ExchangeRecord) : ChannelRec :=
  let (cur, mark, o) := judgeAdjust r v rs
  let r1 := { r with current := cur, mark := mark }
  if o = .ok ∧ r.mode = .once then { r1 with mode := .fixed, preset := v } else r1

/-! ### Verification (R144) -/

/-- The channels whose mark is true, in id order. -/
def markedChannels (t : Option (Quad ChannelRec)) : List Channel :=
  match t with
  | some q => [0, 1, 2, 3].filter fun c => (q.get c).mark
  | none => []

/-- What one record of a VERIFY burst does to the table (R144). -/
def verifyRecord (t : Quad ChannelRec) (r : ExchangeRecord) : Quad ChannelRec :=
  match r.order, r.reply with
  | .readCh c, some (.readCh v) => modChannel t c fun x => { x with current := some v, mark := false }
  | _, _ => t

/-- A READ_CH of a VERIFY burst returned OK with the channel's current value (R144). -/
def readsCurrent (t : Quad ChannelRec) (r : ExchangeRecord) : Bool :=
  match r.order, r.reply with
  | .readCh c, some (.readCh v) => (t.get c).current == some v
  | _, _ => false

/-- R144: every READ_CH of the burst returned the current value. -/
def verified (t : Quad ChannelRec) (r : BurstReport) : Bool := r.result == .ok && r.records.all (readsCurrent t)

namespace Station

def setRequest (st : Station) (s : Socket) (r : CruRequest) : Station := st.modCru s fun x => { x with request := r }

def modTable (st : Station) (s : Socket) (f : Quad ChannelRec → Quad ChannelRec) : Station :=
  st.modCru s fun x => { x with table := x.table.map f }

/-- R137, the checks in order, for the INC's request `n`. -/
def buildPreset (st : Station) (s : Socket) (n : Nat) (t : Quad ChannelRec) : Station :=
  if presetLacks t (st.incSocket s).joinPresence ∨ presetOutside t then st.tellInc (.presetOutcome s n false)
  else
    match presetBurst st.verifyWrites t with
    | [] => st.tellInc (.presetOutcome s n true)
    | o :: os => (st.setRequest s (.preset st.mpc.nextBurst n)).requestBurst s .preset o os

/-- PRESET_REQUEST (R137). -/
def presetRequest (s : Socket) (st : Station) : Station :=
  st.cruReport (fun m => match m with | .presetRequest x n => if x = s then some n else none | _ => none) fun n st =>
    match (st.cruSocket s).table with
    | some t => st.buildPreset s n t
    | none => st.tellInc (.presetOutcome s n true)

/-- The CRU takes the end of a burst of one kind on a socket; one port's reports keep their order. -/
def takeBurstEnd (st : Station) (s : Socket) (k : BurstKind) (f : BurstReport → Station → Station) : Station :=
  match takeFirst (fun m => match m with | CruMsg.burstEnd x r => if x = s ∧ r.kind = k then some r else none | _ => none)
      (fun m => m.isRunOpened || isBurstEnd s m) st.cru.inbox with
  | some (r, rest) => f r { st with cru := { st.cru with inbox := rest } }
  | none => st

/-- PRESET_BURST_END (R138). The end of a burst of a run that has closed is discarded (R147). -/
def presetBurstEnd (s : Socket) (st : Station) : Station :=
  st.takeBurstEnd s .preset fun r st =>
    match (st.cruSocket s).request with
    | .preset b n =>
      if b = r.id then
        ((st.modTable s fun t => r.records.foldl presetRecord t).setRequest s .none).tellInc
          (.presetOutcome s n (r.result == .ok && readbacksAgree r.records))
      else st
    | _ => st

/-- R139, R140. -/
def correct (st : Station) (s : Socket) (c : Channel) (mean : Int) (r : ChannelRec) : Station :=
  match r.current with
  | none => st.tellStc (.adjusted s .svcFail)
  | some cur =>
    let v := cur + correctionCounts mean r.sensitivity
    if inBounds r v then
      (st.setRequest s (.adjust st.mpc.nextBurst c v)).requestBurst s .adjust (.writeCh c v)
        (if st.verifyWrites then [.readCh c] else [])
    else st.tellStc (.adjusted s .adjLimit)

/-- CORRECTION_REQUEST (R139). -/
def correctionRequest (s : Socket) (st : Station) : Station :=
  st.cruReport (fun m => match m with | .correction x c mean => if x = s then some (c, mean) else none | _ => none)
    fun (c, mean) st =>
      match st.channel s c with
      | some r => st.correct s c mean r
      | none => st.tellStc (.adjusted s .svcFail)

/-- R141, R142: the end of the burst of the correction in progress. -/
def takeAdjust (st : Station) (s : Socket) (c : Channel) (v : Int) (rs : List ExchangeRecord) : Station :=
  match st.channel s c with
  | some x =>
    ((st.modTable s fun t => modChannel t c fun x => adjustedRec x v rs).setRequest s .none).tellStc
      (.adjusted s (judgeAdjust x v rs).2.2)
  | none => st

/-- ADJUST_BURST_END (R141). The end of a burst of a run that has closed is discarded (R147). -/
def adjustBurstEnd (s : Socket) (st : Station) : Station :=
  st.takeBurstEnd s .adjust fun r st =>
    match (st.cruSocket s).request with
    | .adjust b c v => if b = r.id then st.takeAdjust s c v r.records else st
    | _ => st

/-- VERIFICATION_REQUEST (R144). -/
def verificationRequest (s : Socket) (st : Station) : Station :=
  st.cruReport (fun m => match m with | .verifyRequest x => if x = s then some () else none | _ => none) fun _ st =>
    match markedChannels (st.cruSocket s).table with
    | [] => st.tellSlu (.verification s true st.bmr.phase)
    | c :: cs => (st.setRequest s (.verify st.mpc.nextBurst)).requestBurst s .verify (.readCh c) (cs.map .readCh)

/-- R144, R145: the reports of a verification that ended, both by the mirror's phase at the report. -/
def reportVerification (st : Station) (s : Socket) (ok : Bool) : Station :=
  let st1 := st.tellSlu (.verification s ok st.bmr.phase)
  if ok = false ∧ st.bmr.phase = .sealing then st1.tellInc (.verifyFail s) else st1

/-- VERIFY_BURST_END (R144, R145). -/
def verifyBurstEnd (s : Socket) (st : Station) : Station :=
  st.takeBurstEnd s .verify fun r st =>
    match (st.cruSocket s).request, (st.cruSocket s).table with
    | .verify b, some t =>
      if b = r.id then
        ((st.modTable s fun t => r.records.foldl verifyRecord t).setRequest s .none).reportVerification s (verified t r)
      else st
    | _, _ => st

/-- The burst of a request in progress. -/
def requestBurstId : CruRequest → Option Nat
  | .none => none
  | .preset b _ => some b
  | .adjust b _ _ => some b
  | .verify b => some b

/-- R147 and R136 at one socket. A withdrawal of a burst that already runs changes nothing at the port (R158). -/
def closeRequest (s : Socket) (st : Station) : Station :=
  let st1 := match requestBurstId (st.cruSocket s).request with
    | some b => st.tellMpc (.withdraw s b)
    | none => st
  st1.modCru s fun _ => { table := freshTable (st.profile s), request := .none }

/-- CRU_RUN_OPENED (R147, R136). DESIGN CHOICE (log 51): a request that a block still at the closed run makes of a CRU past the
notice is taken by the tables it finds. The manual does not say. -/
def cruRunOpened (st : Station) : Station := st.cruRunOpenedNotice fun st => st.each closeRequest

end Station

/-- PRESET_REQUEST (R137). -/
def execPresetRequest (x : Socket) (s : State) : Answer := s.run (Station.presetRequest x)
/-- PRESET_BURST_END (R138). -/
def execPresetBurstEnd (x : Socket) (s : State) : Answer := s.run (Station.presetBurstEnd x)
/-- CORRECTION_REQUEST (R139). -/
def execCorrectionRequest (x : Socket) (s : State) : Answer := s.run (Station.correctionRequest x)
/-- ADJUST_BURST_END (R141). -/
def execAdjustBurstEnd (x : Socket) (s : State) : Answer := s.run (Station.adjustBurstEnd x)
/-- VERIFICATION_REQUEST (R144). -/
def execVerificationRequest (x : Socket) (s : State) : Answer := s.run (Station.verificationRequest x)
/-- VERIFY_BURST_END (R144). -/
def execVerifyBurstEnd (x : Socket) (s : State) : Answer := s.run (Station.verifyBurstEnd x)
/-- CRU_RUN_OPENED (R147). -/
def execCruRunOpened (s : State) : Answer := s.run Station.cruRunOpened

end Sys2Proof.Machine
end

