-- ==== Sys2Proof/Machine/Insertion.lean ====
section
/-! DEFINITION. The Insertion Controller (chapter 5): probe cycles, the join sequence, supervision, cool-down and shedding. -/

namespace Sys2Proof.Machine

/-! ### Probe results (R113 to R116) -/

/-- R113. -/
def detectClass (p : Profile) (microOhms : Nat) : DetectClass :=
  if p.rhi < microOhms then .none else if microOhms < p.rlo then .short else .valid

/-- The IDENT replies received with OK, in order (R114). -/
def identReplies (rs : List ExchangeRecord) : List (MeterId × Bool) :=
  rs.filterMap fun r =>
    match r.reply with
    | some (.ident cls serial presence locked) => some ({ cls := cls, serial := serial, presence := presence }, locked)
    | _ => none

/-- The serials of two IDENT replies differ (R114, check 3). -/
def serialsDiffer : List (MeterId × Bool) → Bool
  | [a, b] => a.1.serial != b.1.serial
  | _ => false

/-- A channel the profile does not turn OFF is missing from the presence flags (R114 check 5). -/
def lacksChannel (p : Profile) (presence : Quad Bool) : Bool :=
  [0, 1, 2, 3].any fun c : Channel => (p.channels.get c).mode != .off && !presence.get c

/-- R114, the checks in order. -/
def identOutcome (p : Profile) (r : BurstReport) : IdentOutcome :=
  let ids := identReplies r.records
  if r.result = .locked then .locked
  else if r.result ≠ .ok then .fail
  else if serialsDiffer ids then .mismatch
  else
    match ids.getLast? with
    | none => .fail
    | some (m, locked) =>
      if locked then .locked
      else if m.cls ≠ p.cls ∨ lacksChannel p m.presence then .classMismatch
      else .ok

/-- R116: the change count after a cycle with this detect class. -/
def changesAfter (old : Option ProbeResult) (d : DetectClass) (n : Nat) : Nat :=
  match old with
  | some o => if o.detect = d then n else satSucc Config.smallCountMax n
  | none => n

/-- R121: the join fault of step 2, or nothing when the result passes to step 3. -/
def stepTwoFault (r : ProbeResult) : Option JoinFault :=
  if r.detect ≠ .valid then some .noMeter
  else
    match r.ident with
    | some .fail => some .identFail
    | some .mismatch => some .identMismatch
    | some .locked => some .meterLocked
    | some .classMismatch => some .profileMismatch
    | some .ok => none
    | none => some .identFail

namespace Station

/-- A probe cycle begins with detect (R113). -/
def startCycle (st : Station) (s : Socket) : Station :=
  st.modInc s fun i => { i with state := .probing, cycle := .detect Config.detectMs, idleWait := none }

/-- The join ends with a fault, reported to the STC (R121 to R123). -/
def failJoin (st : Station) (s : Socket) (c : JoinFault) : Station :=
  (st.modInc s fun i => { i with join := .none, joinFault := c }).tellStc (.joinOutcome s (.fault c))

/-- Step 3 opens the shunt for the insertion window (R122). -/
def insert (st : Station) (s : Socket) (m : MeterId) : Station :=
  st.modInc s fun i =>
    { i with state := .inserting, window := some st.insertionMs, join := .inserting, joinClass := m.cls,
             joinPresence := m.presence }

/-- Step 2 of the join (R121). -/
def stepTwo (st : Station) (s : Socket) : Station :=
  match (st.incSocket s).probe with
  | none => st.failJoin s .noMeter
  | some r =>
    match stepTwoFault r, r.meter with
    | some c, _ => st.failJoin s c
    | none, some m => st.insert s m
    | none, none => st.failJoin s .identFail

/-- Step 1 of the join at the BYPASSED row (R120). -/
def stepOneBypassed (st : Station) (s : Socket) : Station :=
  if usableProbe (st.incSocket s).probe then st.stepTwo s
  else (st.startCycle s).modInc s fun i => { i with join := .freshCycle }

/-- The end of a probe cycle (R115, R116), and the join that waits for it (R120). -/
def endCycle (st : Station) (s : Socket) (r : ProbeResult) : Station :=
  let st1 := st.modInc s fun i =>
    { i with state := .bypassed, probe := some r, changes := changesAfter i.probe r.detect i.changes, cycle := .none,
             idleWait := some Config.idleProbeMs }
  match (st.incSocket s).join with
  | .waitCycle => st1.stepOneBypassed s
  | .freshCycle => st1.stepTwo s
  | _ => st1

/-- INC_START_UP_END (R117): the first probe cycle of each enabled socket. -/
def incStartUpEnd (st : Station) : Station :=
  st.incNotice (fun m => match m with | .startUpEnd => some () | _ => none) fun _ st =>
    let st1 := { st with inc := { st.inc with idle := true } }
    st1.each fun s st => if st.enabled s ∧ (st.incSocket s).state = .bypassed then st.startCycle s else st

/-- Idle cycles start only in CLOSED and ENDED (R117). -/
def idlePhase (st : Station) : Bool := st.bmr.phase == .closed || st.bmr.phase == .ended

/-- IDLE_PROBE_START (R117). -/
def idleProbeStart (s : Socket) (st : Station) : Station :=
  if st.started ∧ st.inc.idle ∧ st.idlePhase ∧ st.enabled s ∧ (st.incSocket s).state = .bypassed then st.startCycle s
  else st

/-- The PROBE burst of classify: one IDENT order, or two with the confirm-identity flag (R114). -/
def requestProbe (st : Station) (s : Socket) (confirm : Bool) : Station :=
  (st.modInc s fun i => { i with cycle := .classify st.mpc.nextBurst }).requestBurst s .probe .ident
    (if confirm then [.ident] else [])

/-- DETECT_END (R113). -/
def detectEnd (s : Socket) (microOhms : Nat) (st : Station) : Station :=
  match (st.incSocket s).cycle, st.profile s with
  | .detect _, some p =>
    match detectClass p microOhms with
    | .valid => st.requestProbe s p.confirm
    | d => st.endCycle s { detect := d, ident := none, meter := none, age := 0 }
  | _, _ => st

/-- The cycle's result from the PROBE burst's end (R114, R115). -/
def probeResult (p : Profile) (r : BurstReport) : ProbeResult :=
  { detect := .valid, ident := some (identOutcome p r), meter := (identReplies r.records).getLast?.map Prod.fst, age := 0 }

/-- PROBE_BURST_END (R114). -/
def probeBurstEnd (s : Socket) (st : Station) : Station :=
  st.incReport (fun m => match m with | .probeEnd x r => if x = s then some r else none | _ => none) fun r st =>
    match (st.incSocket s).cycle, st.profile s with
    | .classify b, some p => if b = r.id then st.endCycle s (probeResult p r) else st
    | _, _ => st

/-- R119, R120: one socket at the run-opened notice. INSERTING and INSERTED have no row (log 31). Where the STC, running ahead
(R34), has asked for the late end of the join, NONE becomes LATE, the join does not begin and its shunt is not opened (R70,
R119, R124; log 48). -/
def openJoin (late : Bool) (s : Socket) (st : Station) : Station :=
  if st.enabled s then
    let st1 := st.modInc s fun i => { i with joinFault := .none, deferred := none, join := .none }
    if late then st1.modInc s (lateFault .late)
    else match (st.incSocket s).state with
    | .cooling => st1.modInc s fun i => { i with join := .waitCool }
    | .probing => st1.modInc s fun i => { i with join := .waitCycle }
    | .bypassed => st1.stepOneBypassed s
    | .inserting => st1
    | .inserted => st1
  else st.modInc s fun i => { i with joinFault := .disabled, deferred := none }

/-- INC_RUN_OPENED (R119, R133). -/
def incRunOpened (st : Station) : Station :=
  st.incRunOpenedNotice fun late st =>
    let st1 := { st with inc := { st.inc with idle := false } }
    st1.each fun s => openJoin (late.get s) s

/-- The socket enters COOLING with its shunt closed and its timers cleared (R122, R126, R129). -/
def coolSocket (i : IncSocket) : IncSocket :=
  { i with state := .cooling, coolDown := some Config.coolDownMs, window := none, join := .none, overburden := .zero,
           openCircuit := .zero }

/-- INSERTION_SENSE_ABOVE_VOPEN (R122). -/
def senseAboveVopen (s : Socket) (st : Station) : Station :=
  if (st.incSocket s).state = .inserting then (st.modInc s coolSocket).failJoin s .insertFail else st

/-- The INC asks the CRU for the preset burst of a socket's join, under the next request number (R123; log 20). -/
def askPreset (st : Station) (s : Socket) : Station :=
  let n := st.inc.nextPreset
  let st1 := st.modInc s fun i => { i with join := .preset n }
  { st1 with inc := { st1.inc with nextPreset := n + 1 } }.tellCru (.presetRequest s n)

/-- INSERTION_WINDOW_END (R122, R123). -/
def insertionWindowEnd (s : Socket) (st : Station) : Station :=
  if (st.incSocket s).state = .inserting then
    (st.modInc s fun i =>
      { i with state := .inserted, window := none, overburden := .zero, openCircuit := .zero }).askPreset s
  else st

/-- R123, for a socket INSERTED whose join has not ended. -/
def takePresetOutcome (st : Station) (s : Socket) (ok : Bool) : Station :=
  if ok then
    (st.modInc s fun i => { i with join := .none, joinFault := .none }).tellStc
      (.joinOutcome s (.joined (st.incSocket s).joinClass))
  else (st.closeShunt s).failJoin s .presetFail

/-- PRESET_OUTCOME (R123). The outcome of a join that has ended is ignored, also where the socket already stands in the next
run's join (R146): the outcome carries the number of its request (log 20). -/
def presetOutcome (s : Socket) (st : Station) : Station :=
  st.incReport (fun m => match m with | .presetOutcome x n ok => if x = s then some (n, ok) else none | _ => none)
    fun (n, ok) st =>
      if (st.incSocket s).state = .inserted ∧ (st.incSocket s).join = .preset n then st.takePresetOutcome s ok else st

/-! ### Supervision (R125 to R128) -/

/-- One of the two supervision timers of a socket. -/
def supTimer (i : IncSocket) : SupTimer → Supervision
  | .overburden => i.overburden
  | .openCircuit => i.openCircuit

/-- A change of one of the two supervision timers. -/
def modSup (i : IncSocket) (t : SupTimer) (f : Supervision → Supervision) : IncSocket :=
  match t with
  | .overburden => { i with overburden := f i.overburden }
  | .openCircuit => { i with openCircuit := f i.openCircuit }

/-- The cause a supervision timer's limit gives (R126). -/
def supCause : SupTimer → OutCause
  | .overburden => .overburden
  | .openCircuit => .openCircuit

/-- R126 step 2. -/
def countFault (t : SupTimer) (i : IncSocket) : IncSocket :=
  match t with
  | .overburden => { i with overburdenFaults := satSucc Config.smallCountMax i.overburdenFaults }
  | .openCircuit => { i with openFaults := satSucc Config.smallCountMax i.openFaults }

/-- R127, by the run state and the JOIN as they stand when the fault is taken. DESIGN CHOICE (log 52): they are read so also
where the INC is at a later run than the STC, and are then the closed run's; a run state R127 gives no row (IDLE, OUT, DONE
and after) places no BYPASS and leaves the join fault. The manual does not say. -/
def placeSupervisionBypass (st : Station) (s : Socket) (c : OutCause) : Station :=
  let r := (st.ctx s).run
  if r.stepping ∨ r = .joined then st.placeBypass s c
  else if r = .joining then
    if st.stc.joinPlaced then st.modInc s fun i => { i with deferred := some c }
    else st.modInc s (lateFault .insertFail)
  else st

/-- SUPERVISION_TIMER_LIMIT (R126), its five steps in order. -/
def supervisionLimit (s : Socket) (t : SupTimer) (st : Station) : Station :=
  if (st.incSocket s).state = .inserted ∧ (supTimer (st.incSocket s) t).count = st.supLimit t then
    ((((st.modInc s coolSocket).modInc s (countFault t)).withdrawVerdict s).tellStc (.bypass s (supCause t))).placeSupervisionBypass
      s (supCause t)
  else st

/-- A timer's decay sub-count completes now: 15 of its 16 ms have passed below the level and this command ends the last
(R125; log 2). A timer at its limit is a supervision fault about to be taken (R126; log 23). -/
def decayDue (limit : Nat) (v : Supervision) : Bool :=
  v.above == false && v.decay == Config.decayMs - 1 && v.count != limit

/-- SUPERVISION_TIMER_DECAY (R125). -/
def supervisionDecay (s : Socket) (t : SupTimer) (st : Station) : Station :=
  if (st.incSocket s).state = .inserted ∧ decayDue (st.supLimit t) (supTimer (st.incSocket s) t) then
    st.modInc s fun i => modSup i t fun v => { v with count := v.count - 1, decay := 0 }
  else st

/-- A millisecond above the level; a timer does not pass its limit (R125). -/
def riseBy (limit : Nat) (v : Supervision) : Supervision :=
  { count := min limit (v.count + 1), decay := 0, above := true }

/-- SUPERVISION_TIMER_RISE (R125): a sense above Vopen is also above Vcut. -/
def supervisionRise (s : Socket) (level : SupTimer) (st : Station) : Station :=
  if (st.incSocket s).state = .inserted then
    st.modInc s fun i =>
      let i1 := modSup i .overburden (riseBy (st.supLimit .overburden))
      match level with
      | .overburden => i1
      | .openCircuit => modSup i1 .openCircuit (riseBy (st.supLimit .openCircuit))
  else st

/-- COOL_DOWN_END (R129), and a join waiting for it (R120). -/
def coolDownEnd (s : Socket) (st : Station) : Station :=
  if (st.incSocket s).state = .cooling then
    let st1 := st.modInc s fun i => { i with state := .bypassed, coolDown := none }
    if (st.incSocket s).join = .waitCool then st1.stepOneBypassed s else st1
  else st

/-! ### Shedding and the end of the run -/

/-- The sockets a shed of this level takes (R130), by the STC's run states as they stand, also where the STC is at another run
than the INC (log 52). -/
def shedTakes (st : Station) (level : Nat) (s : Socket) : Bool :=
  st.enabled s && decide (level ≤ st.shedRank s) && (st.incSocket s).state == .inserted && (st.ctx s).run.stepping

/-- R130, its four steps at one socket. -/
def shedSocket (level : Nat) (s : Socket) (st : Station) : Station :=
  if st.shedTakes level s then
    (((st.closeShunt s).withdrawVerdict s).tellStc (.bypass s .shed)).placeBypass s .shed
  else st

/-- INC_SHED (R130). -/
def incShed (st : Station) : Station :=
  st.incNotice (fun m => match m with | .shed l => some l | _ => none) fun l st => st.each (shedSocket l)

/-- INC_RUN_ENDED (R117): idle probing starts again; each cycle is an IDLE_PROBE_START of its own (log 22). -/
def incRunEnded (st : Station) : Station :=
  st.incNotice (fun m => match m with | .ended _ => some () | _ => none) fun _ st =>
    { st with inc := { st.inc with idle := true } }

/-- VERIFY_FAIL_REPORT (R145, R128). One taken after a next run has opened acts no differently (log 51). -/
def verifyFailReport (s : Socket) (st : Station) : Station :=
  st.incReport (fun m => match m with | .verifyFail x => if x = s then some () else none | _ => none) fun _ st =>
    st.placeBypass s .verifyFail

end Station

/-- INC_START_UP_END (R117). -/
def execIncStartUpEnd (s : State) : Answer := s.run Station.incStartUpEnd
/-- IDLE_PROBE_START (R117). -/
def execIdleProbeStart (x : Socket) (s : State) : Answer := s.run (Station.idleProbeStart x)
/-- DETECT_END (R113): the sense is that of the socket the remap ties to the position (R111). -/
def execDetectEnd (p : Position) (microOhms : Nat) (s : State) : Answer :=
  s.run fun st => st.atPosition p fun x => Station.detectEnd x microOhms
/-- PROBE_BURST_END (R114). -/
def execProbeBurstEnd (x : Socket) (s : State) : Answer := s.run (Station.probeBurstEnd x)
/-- INC_RUN_OPENED (R119). -/
def execIncRunOpened (s : State) : Answer := s.run Station.incRunOpened
/-- INSERTION_SENSE_ABOVE_VOPEN (R122). -/
def execInsertionSenseAboveVopen (p : Position) (s : State) : Answer :=
  s.run fun st => st.atPosition p Station.senseAboveVopen
/-- INSERTION_WINDOW_END (R122). -/
def execInsertionWindowEnd (x : Socket) (s : State) : Answer := s.run (Station.insertionWindowEnd x)
/-- PRESET_OUTCOME (R123). -/
def execPresetOutcome (x : Socket) (s : State) : Answer := s.run (Station.presetOutcome x)
/-- SUPERVISION_TIMER_LIMIT (R126). -/
def execSupervisionTimerLimit (x : Socket) (t : SupTimer) (s : State) : Answer := s.run (Station.supervisionLimit x t)
/-- SUPERVISION_TIMER_DECAY (R125). -/
def execSupervisionTimerDecay (x : Socket) (t : SupTimer) (s : State) : Answer := s.run (Station.supervisionDecay x t)
/-- SUPERVISION_TIMER_RISE (R125). -/
def execSupervisionTimerRise (p : Position) (l : SupTimer) (s : State) : Answer :=
  s.run fun st => st.atPosition p fun x => Station.supervisionRise x l
/-- COOL_DOWN_END (R129). -/
def execCoolDownEnd (x : Socket) (s : State) : Answer := s.run (Station.coolDownEnd x)
/-- INC_SHED (R130). -/
def execIncShed (s : State) : Answer := s.run Station.incShed
/-- INC_RUN_ENDED (R117). -/
def execIncRunEnded (s : State) : Answer := s.run Station.incRunEnded
/-- VERIFY_FAIL_REPORT (R145). -/
def execVerifyFailReport (x : Socket) (s : State) : Answer := s.run (Station.verifyFailReport x)

end Sys2Proof.Machine
end

