-- ==== Sys2Proof/Machine/Mirror.lean ====
section
/-! DEFINITION. The Bench Mirror (chapter 1): what each frame kind and marker does to the mirror when it is taken, and the
notices it gives. -/

namespace Sys2Proof.Machine

/-! ### The roster and the pool -/

/-- The roster index of (node, socket) (R5). A sender that is no node number names no entry (log 8). -/
def rosterPos (sender : Byte) (s : Socket) : Nat := sender.toNat * 4 + s.val

namespace Mirror

def entry (m : Mirror) (i : Nat) : RosterEntry := m.roster.getD i .absent

def setEntry (m : Mirror) (i : Nat) (e : RosterEntry) : Mirror := { m with roster := m.roster.set i e }

/-- Some entry is in a state. -/
def has (m : Mirror) (x : EntryState) : Bool := m.roster.any fun e => e.state == x

/-- The phase becomes ENDED with a cause (R4). -/
def endRun (m : Mirror) (c : EndCause) : Mirror :=
  { m with phase := .ended, endCause := some c, step := none, stepComplete := false, paused := false }

end Mirror

/-- The notices of R34; `sealing` and `ended` are the phase changes. -/
inductive Notice where
  | runOpened
  | tableRefusal (run : Byte) (fp : W32)
  | ownJoin (applied : Bool) (mask : Byte)
  | loadSet (k : Nat) (paused noneLeft : Bool)
  | shed (level : Nat)
  | disturbance
  | stepComplete (step : Nat) (last : Bool)
  | paused
  | resumed
  | sealing
  | ended (c : EndCause)
  | ownClaim (s : Socket) (r : ClaimResult)
  | assignment (s : Socket) (number : Nat)
  | query
  | mirrorCheck
  | ignoredRunFrame
  deriving DecidableEq, Repr

/-- What a run-opened notice of this moment carries (R34). -/
def Mirror.header (m : Mirror) : RunHeader := { run := m.runNo, slot := m.slot, fingerprint := m.fingerprint }

/-- A notice goes to every block of the station (R34). -/
def Station.tellAll (st : Station) (n : RunNotice) : Station := { st with notices := .all (some n) }

/-- A notice reaches its blocks (R34). The run-opened and phase-change notices reach every block; those that take one by a
row of their own have it in their inbox as well (log 5). The RPU counts an ignored run frame at once (R193). -/
def Station.give (st : Station) : Notice → Station
  | .runOpened =>
    let h := st.bmr.header
    (((((st.tellAll (.opened h)).tellStc (.runOpened h)).tellGcu (.runOpened h)).tellInc (.runOpened h (.all4 false))).tellCru
      (.runOpened h)).tellSlu (.runOpened h)
  | .tableRefusal r fp => st.tellStc (.tableRefusal r fp)
  | .ownJoin a m => st.tellStc (.ownJoin a m)
  | .loadSet k p n => st.tellStc (.loadSet k p n)
  | .shed l => st.tellInc (.shed l)
  | .disturbance => st.tellStc .disturbance
  | .stepComplete k l => st.tellStc (.stepComplete k l)
  | .paused => st.tellStc .paused
  | .resumed => st.tellStc .resumed
  | .sealing => st.tellAll (.phase .sealing none)
  | .ended c => (((st.tellAll (.phase .ended (some c))).tellStc (.ended c)).tellInc (.ended c)).tellSlu (.ended c)
  | .ownClaim s r => st.tellSlu (.ownClaim s r)
  | .assignment s n => st.tellSlu (.assignment s n)
  | .query => { st with rpu := { st.rpu with queries := st.rpu.queries + 1 } }
  | .mirrorCheck => { st with lkc := { st.lkc with mirrorChecks := st.lkc.mirrorChecks + 1 } }
  | .ignoredRunFrame => { st with rpu := { st.rpu with ignored := satSucc Config.counterMax st.rpu.ignored } }

def Station.giveAll (st : Station) (ns : List Notice) : Station := ns.foldl Station.give st

namespace Mirror

/-! ### Step completion and the end test -/

/-- Every ACTIVE entry has the current step as its last verdict step (R7, check 2). -/
def allPassed (m : Mirror) : Bool :=
  m.roster.all fun e => e.state != .active || e.lastVerdict == m.step

/-- R8: a step completes. -/
def completeStep (m : Mirror) (k : Nat) : Mirror × List Notice :=
  if m.stepCount = some (k + 1) then
    ({ m with roster := m.roster.map fun e => if e.state = .active then { e with state := .done } else e,
              phase := .sealing, step := none, stepComplete := false },
     [.stepComplete k true, .sealing])
  else ({ m with stepComplete := true }, [.stepComplete k false])

/-- R7: the step-completion test, in STEPPING. -/
def stepTest (m : Mirror) : Mirror × List Notice :=
  match m.phase, m.step with
  | .stepping, some k =>
    if !m.has .active then (m.endRun .noneLeft, [.ended .noneLeft])
    else if !m.stepComplete && m.allPassed then m.completeStep k
    else (m, [])
  | _, _ => (m, [])

/-- R9: the end test, after every entry taken. -/
def endTest (m : Mirror) : Mirror × List Notice :=
  if m.phase = .sealing ∧ !m.has .done ∧ !m.has .sealWait ∧ !m.has .claimed then
    (m.endRun .complete, [.ended .complete])
  else (m, [])

/-! ### The frames -/

/-- The position leaves the run: OUT with a cause; a SEAL_WAIT position also leaves the waiting list (R13, R22, R23). -/
def moveOut (m : Mirror) (i : Nat) (c : OutCause) : Mirror :=
  { m.setEntry i { m.entry i with state := .out, out := some c } with
    waiting := if (m.entry i).state = .sealWait then m.waiting.filter (· != i) else m.waiting }

/-- R20: a JOIN from a node, with the joined mask, fingerprint and meter classes of the frame. -/
def join (m : Mirror) (sender mask : Byte) (fp : W32) (js : Quad JoinSocket) : Option Mirror :=
  let absent := [0, 1, 2, 3].all fun s : Socket => (m.entry (rosterPos sender s)).state == .absent
  let joins := maskFlags mask
  if m.phase = .joining ∧ absent ∧ ((joins.toList.any id) → fp = m.fingerprint) then
    some { m with
      roster := m.roster.mapIdx fun i e =>
        if i / 4 = sender.toNat ∧ joins.get (Fin.ofNat 4 i) then
          { RosterEntry.absent with state := .active, cls := (js.get (Fin.ofNat 4 i)).cls }
        else e }
  else none

/-- R21. -/
def loadSet (m : Mirror) (k : Nat) : Option (Mirror × List Notice) :=
  if m.phase = .joining ∧ k = 0 then
    if m.has .active then
      let m1 := { m with phase := .stepping, step := some 0, stepComplete := false }
      let (m2, ns) := m1.stepTest
      some (m2, .loadSet 0 m2.paused false :: ns)
    else
      let m1 := m.endRun .noneLeft
      some (m1, [.loadSet 0 m1.paused true, .ended .noneLeft])
  else if m.phase = .stepping ∧ m.stepComplete ∧ m.step.map (· + 1) = some k then
    some ({ m with step := some k, stepComplete := false }, [.loadSet k m.paused false])
  else none

/-- R22; `failed` is the frame's verdict. -/
def verdict (m : Mirror) (i k : Nat) (failed : Bool) : Option (Mirror × List Notice) :=
  let e := m.entry i
  if m.phase = .stepping ∧ e.state = .active ∧ m.step = some k ∧ e.lastVerdict ≠ some k then
    some (if failed then (m.moveOut i .failed).stepTest
      else (m.setEntry i { e with lastVerdict := some k }).stepTest)
  else none

/-- The states a BYPASS moves (R23), and that RUN_ABORT and the bench-fault marker move (R26, R27). -/
def inRun (x : EntryState) : Bool := x == .active || x == .done || x == .sealWait

/-- R23. -/
def bypass (m : Mirror) (i : Nat) (c : OutCause) : Option (Mirror × List Notice) :=
  if inRun (m.entry i).state then
    let m1 := m.moveOut i c
    if m.phase = .stepping then
      let (m2, ns) := m1.stepTest
      some (m2, .disturbance :: ns)
    else some (m1, [])
  else none

/-- R24. -/
def shed (m : Mirror) (level : Nat) : Option (Mirror × List Notice) :=
  if m.phase = .stepping then some (m, [.disturbance, .shed level]) else none

/-- R25. -/
def pause (m : Mirror) : Option (Mirror × List Notice) :=
  if m.phase.isOpen ∧ m.paused = false then some ({ m with paused := true }, [.paused]) else none

/-- R25. -/
def resume (m : Mirror) : Option (Mirror × List Notice) :=
  if m.phase.isOpen ∧ m.paused = true then some ({ m with paused := false }, [.resumed]) else none

/-- R26, R27: the open run ends, with an out cause for the positions still in it. -/
def abort (m : Mirror) (oc : OutCause) (ec : EndCause) : Option (Mirror × List Notice) :=
  if m.phase.isOpen then
    some ({ m.endRun ec with
      roster := m.roster.map fun e => if inRun e.state then { e with state := .out, out := some oc } else e,
      waiting := [] }, [.ended ec])
  else none

/-- R28. -/
def linkReset (m : Mirror) : List Notice := if m.phase = .stepping then [.disturbance] else []

/-- R11: the head block's next number goes to an entry; an exhausted block is removed. Used with a pool that is not
empty. -/
def assign (m : Mirror) (i : Nat) : Mirror × Nat :=
  match m.pool with
  | [] => (m, 0)
  | b :: bs =>
    let n := b.first + b.next
    ({ m.setEntry i { m.entry i with state := .claimed, number := some n } with
        pool := if b.next + 1 = b.count then bs else { b with next := b.next + 1 } :: bs,
        issued := m.issued + 1 }, n)

/-- R14: waiting positions are served from the head until the list or the pool is empty. Answers the positions served with
their numbers, in serving order. -/
def serve : List Nat → Mirror → Mirror × List (Nat × Nat)
  | [], m => ({ m with waiting := [] }, [])
  | i :: is, m =>
    if m.pool.isEmpty then ({ m with waiting := i :: is }, [])
    else
      let (m1, n) := m.assign i
      let (m2, l) := serve is m1
      (m2, (i, n) :: l)

/-- R29, the checks in order. -/
def extendAccepted (m : Mirror) (f c : Nat) : Bool :=
  m.phase.isOpen && decide (m.pool.length < 4) && decide (m.highWater < f) && decide (1 ≤ c)
    && decide (f + c - 1 ≤ Config.maxSealNumber)

/-- R29, R14. -/
def poolExtend (m : Mirror) (f c : Nat) : Option (Mirror × List (Nat × Nat)) :=
  if m.extendAccepted f c then
    some (serve m.waiting { m with pool := m.pool ++ [{ first := f, count := c, next := 0 }], highWater := f + c - 1 })
  else none

/-- R30. -/
def sealClaim (m : Mirror) (i : Nat) : Mirror × ClaimResult :=
  if m.phase = .sealing ∧ (m.entry i).state = .done then
    if m.pool.isEmpty then
      ({ m.setEntry i { m.entry i with state := .sealWait } with waiting := m.waiting ++ [i] }, .waiting)
    else
      let (m1, n) := m.assign i
      (m1, .assigned n)
  else (m, .refused)

/-- R31, SEAL_DONE. -/
def sealDone (m : Mirror) (i n : Nat) : Mirror × List Notice :=
  let e := m.entry i
  if e.state ≠ .claimed then (m, [])
  else if e.number ≠ some n then (m, [.mirrorCheck])
  else ({ m.setEntry i { e with state := .sealed } with sealedCount := m.sealedCount + 1 }, [])

/-- R31, SEAL_SPOIL. -/
def sealSpoil (m : Mirror) (i n : Nat) : Mirror × List Notice :=
  let e := m.entry i
  if e.state ≠ .claimed then (m, [])
  else if e.number ≠ some n then (m, [.mirrorCheck])
  else ({ m.setEntry i { e with state := .out, out := some .sealSpoiled } with spoiledCount := m.spoiledCount + 1 }, [])

/-- R32, one entry of the node. -/
def restarted (e : RosterEntry) : RosterEntry :=
  if inRun e.state || e.state == .claimed then { e with state := .out, out := some .restart, number := none } else e

/-- R32. -/
def announce (m : Mirror) (sender : Byte) : Mirror × List Notice :=
  let mine := [0, 1, 2, 3].map fun s : Socket => m.entry (rosterPos sender s)
  let hadActive := mine.any fun e => e.state == .active
  let claimed := (mine.filter fun e => e.state == .claimed).length
  let m1 := { m with
    roster := m.roster.mapIdx fun i e => if i / 4 = sender.toNat then restarted e else e,
    waiting := m.waiting.filter fun i => i / 4 != sender.toNat,
    spoiledCount := m.spoiledCount + claimed }
  if m.phase = .stepping then
    let (m2, ns) := m1.stepTest
    (m2, if hadActive then .disturbance :: ns else ns)
  else (m1, [])

/-- R18 item 3: the pool a RUN_OPEN opens. -/
def openPool (first count : Nat) : List PoolBlock × Nat :=
  if count = 0 ∨ first = 0 ∨ Config.maxSealNumber < first + count - 1 then ([], 0)
  else ([{ first := first, count := count, next := 0 }], first + count - 1)

/-- R18. -/
def openRun (m : Mirror) (run : Byte) (slot : Fin 2) (fp : W32) (first count steps : Nat) : Mirror :=
  { m with
    runNo := run, slot := slot, fingerprint := fp, phase := .joining, endCause := none, step := none,
    stepCount := some steps, stepComplete := false, paused := false, roster := List.replicate 128 .absent,
    pool := (openPool first count).1, highWater := (openPool first count).2, issued := 0, sealedCount := 0,
    spoiledCount := 0, waiting := [] }

end Mirror

/-! ### Taking an entry (R2, R15, R16) -/

namespace Station

/-- A slot number carried in a frame, when it names one (R17 check 2). -/
def slotOf (b : Byte) : Option (Fin 2) :=
  match b.toNat with
  | 0 => some 0
  | 1 => some 1
  | _ => none

/-- R17: the number of the check by which the mirror refuses a RUN_OPEN. -/
def runOpenRefusal (st : Station) (run slot : Byte) (fp : W32) : Option Nat :=
  if run = 0 then some 1
  else
    match slotOf slot with
    | none => some 2
    | some sl =>
      if st.bmr.phase.isOpen ∨ (st.bmr.phase = .ended ∧ st.bmr.has .claimed) then some 3
      else
        match st.table sl with
        | none => some 4
        | some t => if t.fingerprint = fp then none else some 4

/-- The entry has been taken whole: it leaves the queue, the end test runs, and the notices are given in the order of R34:
those of the rows before the phase change, the end test's, those of the rows after it. -/
def finishTake (st : Station) (rest : List Entry) (m : Mirror) (before after : List Notice) : Station :=
  let (m1, e) := m.endTest
  { st with lkc := { st.lkc with inbound := rest }, bmr := m1 }.giveAll (before ++ e ++ after)

/-- A run frame's number agrees with the header (R15). -/
def currentRun (st : Station) (run : Byte) : Bool := run != 0 && run == st.bmr.runNo

/-- A run frame is taken: the run-number check, then the frame's own checks and effect (R15, R16). -/
def takeRunFrame (st : Station) (rest : List Entry) (run : Byte) (fx : Mirror → Option (Mirror × List Notice)) :
    Station :=
  if st.currentRun run then
    match fx st.bmr with
    | some (m, ns) => st.finishTake rest m ns []
    | none => st.finishTake rest st.bmr [] []
  else st.finishTake rest st.bmr [] [.ignoredRunFrame]

/-- The BMR takes the head of the inbound queue when it is a frame of the kind `pick` accepts (R2). -/
def takeHead {β : Type} (st : Station) (pick : Body → Option β) (f : Frame → Bool → β → List Entry → Station) :
    Station :=
  match st.lkc.inbound with
  | .frame fr own :: rest =>
    match pick fr.body with
    | some b => f fr own b rest
    | none => st
  | _ => st

/-- TAKE_RUN_OPEN (R17, R18). -/
def takeRunOpen (st : Station) : Station :=
  st.takeHead (fun b => match b with | .runOpen sl fp f c => some (sl, fp, f, c) | _ => none)
    fun fr _ (sl, fp, f, c) rest =>
      match st.runOpenRefusal fr.run sl fp with
      | some n => st.finishTake rest st.bmr (if n = 4 then [.tableRefusal fr.run fp] else []) []
      | none =>
        match slotOf sl with
        | none => st
        | some slot =>
          let steps := match st.table slot with | some t => t.steps.length | none => 0
          st.finishTake rest (st.bmr.openRun fr.run slot fp f.toNat c.toNat steps) [.runOpened] []

/-- The join fault codes of R16. -/
def joinFieldsOk (js : Quad JoinSocket) : Bool := js.toList.all fun j => decide (j.fault.toNat ≤ 0x0A)

/-- TAKE_JOIN (R20). The station's own JOIN gives the own-join notice whichever check ignored it. -/
def takeJoin (st : Station) : Station :=
  st.takeHead (fun b => match b with | .join m fp js => some (m, fp, js) | _ => none)
    fun fr own (mask, fp, js) rest =>
      let notice := fun applied => if own then [Notice.ownJoin applied mask] else []
      if st.currentRun fr.run then
        match (if joinFieldsOk js then st.bmr.join fr.sender mask fp js else none) with
        | some m => st.finishTake rest m (notice true) []
        | none => st.finishTake rest st.bmr (notice false) []
      else st.finishTake rest st.bmr (notice false) [.ignoredRunFrame]

/-- TAKE_LOAD_SET (R21). -/
def takeLoadSet (st : Station) : Station :=
  st.takeHead (fun b => match b with | .loadSet k _ => some k | _ => none)
    fun fr _ k rest => st.takeRunFrame rest fr.run fun m => if k.toNat ≤ 23 then m.loadSet k.toNat else none

/-- TAKE_VERDICT (R22). -/
def takeVerdict (st : Station) : Station :=
  st.takeHead (fun b => match b with | .verdict s k v _ _ _ _ _ => some (s, k, v) | _ => none)
    fun fr _ (s, k, v) rest => st.takeRunFrame rest fr.run fun m =>
      match socketOf s with
      | some x =>
        if k.toNat ≤ 23 ∧ v.toNat ≤ 1 then m.verdict (rosterPos fr.sender x) k.toNat (v.toNat == 1) else none
      | none => none

/-- TAKE_BYPASS (R23). -/
def takeBypass (st : Station) : Station :=
  st.takeHead (fun b => match b with | .bypass s c _ => some (s, c) | _ => none)
    fun fr _ (s, c) rest => st.takeRunFrame rest fr.run fun m =>
      match socketOf s, bypassCause c with
      | some x, some cause => m.bypass (rosterPos fr.sender x) cause
      | _, _ => none

/-- TAKE_SHED (R24). -/
def takeShed (st : Station) : Station :=
  st.takeHead (fun b => match b with | .shed l => some l | _ => none)
    fun fr _ l rest => st.takeRunFrame rest fr.run fun m => if l.toNat ≤ 7 then m.shed l.toNat else none

/-- TAKE_PAUSE (R25). -/
def takePause (st : Station) : Station :=
  st.takeHead (fun b => match b with | .pause => some () | _ => none)
    fun fr _ _ rest => st.takeRunFrame rest fr.run Mirror.pause

/-- TAKE_RESUME (R25). -/
def takeResume (st : Station) : Station :=
  st.takeHead (fun b => match b with | .resume => some () | _ => none)
    fun fr _ _ rest => st.takeRunFrame rest fr.run Mirror.resume

/-- TAKE_RUN_ABORT (R26). -/
def takeRunAbort (st : Station) : Station :=
  st.takeHead (fun b => match b with | .runAbort => some () | _ => none)
    fun fr _ _ rest => st.takeRunFrame rest fr.run fun m => m.abort .aborted .aborted

/-- TAKE_BENCH_FAULT_MARKER (R27). -/
def takeBenchFault (st : Station) : Station :=
  match st.lkc.inbound with
  | .benchFault :: rest =>
    match st.bmr.abort .fault .fault with
    | some (m, ns) => st.finishTake rest m ns []
    | none => st.finishTake rest st.bmr [] []
  | _ => st

/-- TAKE_LINK_RESET_MARKER (R28). -/
def takeLinkReset (st : Station) : Station :=
  match st.lkc.inbound with
  | .linkReset :: rest => st.finishTake rest st.bmr st.bmr.linkReset []
  | _ => st

/-- The assignment notices of the positions served that are this station's, in serving order (R14). -/
def servedHere (st : Station) (l : List (Nat × Nat)) : List Notice :=
  (l.filter fun x => x.1 / 4 == st.cfl.node.val).map fun x => .assignment (Fin.ofNat 4 x.1) x.2

/-- TAKE_POOL_EXTEND (R29, R14). -/
def takePoolExtend (st : Station) : Station :=
  st.takeHead (fun b => match b with | .poolExtend f c => some (f, c) | _ => none)
    fun fr _ (f, c) rest =>
      if st.currentRun fr.run then
        match st.bmr.poolExtend f.toNat c.toNat with
        | some (m, l) => st.finishTake rest m [] (st.servedHere l)
        | none => st.finishTake rest st.bmr [] []
      else st.finishTake rest st.bmr [] [.ignoredRunFrame]

/-- TAKE_SEAL_CLAIM (R30). The station's own claim gives the own-claim notice whichever check refused it. -/
def takeSealClaim (st : Station) : Station :=
  st.takeHead (fun b => match b with | .sealClaim s => some s | _ => none)
    fun fr own s rest =>
      match socketOf s with
      | some x =>
        let notice := fun r => if own then [Notice.ownClaim x r] else []
        if st.currentRun fr.run then
          let (m, r) := st.bmr.sealClaim (rosterPos fr.sender x)
          st.finishTake rest m [] (notice r)
        else st.finishTake rest st.bmr [] (notice .refused ++ [.ignoredRunFrame])
      | none => st.finishTake rest st.bmr [] (if st.currentRun fr.run then [] else [.ignoredRunFrame])

/-- TAKE_SEAL_DONE (R31). -/
def takeSealDone (st : Station) : Station :=
  st.takeHead (fun b => match b with | .sealDone s n _ => some (s, n) | _ => none)
    fun fr _ (s, n) rest => st.takeRunFrame rest fr.run fun m =>
      match socketOf s with
      | some x => if n = 0 then none else some (m.sealDone (rosterPos fr.sender x) n.toNat)
      | none => none

/-- TAKE_SEAL_SPOIL (R31). -/
def takeSealSpoil (st : Station) : Station :=
  st.takeHead (fun b => match b with | .sealSpoil s n c => some (s, n, c) | _ => none)
    fun fr _ (s, n, c) rest => st.takeRunFrame rest fr.run fun m =>
      match socketOf s with
      | some x =>
        if n = 0 ∨ c ∉ spoilCodes then none else some (m.sealSpoil (rosterPos fr.sender x) n.toNat)
      | none => none

/-- TAKE_ANNOUNCE (R32). -/
def takeAnnounce (st : Station) : Station :=
  st.takeHead (fun b => match b with | .announce _ _ _ _ => some () | _ => none)
    fun fr _ _ rest =>
      let (m, ns) := st.bmr.announce fr.sender
      st.finishTake rest m ns []

/-- TAKE_QUERY (R33). -/
def takeQuery (st : Station) : Station :=
  st.takeHead (fun b => match b with | .query t => some t | _ => none)
    fun _ _ t rest => st.finishTake rest st.bmr [] (if t.toNat = st.cfl.node.val then [.query] else [])

/-- TAKE_STATE (R33). -/
def takeState (st : Station) : Station :=
  st.takeHead (fun b => match b with | .state r => some r | _ => none)
    fun _ _ _ rest => st.finishTake rest st.bmr [] []

end Station

/-- TAKE_RUN_OPEN (R17). -/
def execTakeRunOpen (s : State) : Answer := s.run Station.takeRunOpen
/-- TAKE_JOIN (R20). -/
def execTakeJoin (s : State) : Answer := s.run Station.takeJoin
/-- TAKE_LOAD_SET (R21). -/
def execTakeLoadSet (s : State) : Answer := s.run Station.takeLoadSet
/-- TAKE_VERDICT (R22). -/
def execTakeVerdict (s : State) : Answer := s.run Station.takeVerdict
/-- TAKE_BYPASS (R23). -/
def execTakeBypass (s : State) : Answer := s.run Station.takeBypass
/-- TAKE_SHED (R24). -/
def execTakeShed (s : State) : Answer := s.run Station.takeShed
/-- TAKE_PAUSE (R25). -/
def execTakePause (s : State) : Answer := s.run Station.takePause
/-- TAKE_RESUME (R25). -/
def execTakeResume (s : State) : Answer := s.run Station.takeResume
/-- TAKE_RUN_ABORT (R26). -/
def execTakeRunAbort (s : State) : Answer := s.run Station.takeRunAbort
/-- TAKE_BENCH_FAULT_MARKER (R27). -/
def execTakeBenchFaultMarker (s : State) : Answer := s.run Station.takeBenchFault
/-- TAKE_LINK_RESET_MARKER (R28). -/
def execTakeLinkResetMarker (s : State) : Answer := s.run Station.takeLinkReset
/-- TAKE_POOL_EXTEND (R29). -/
def execTakePoolExtend (s : State) : Answer := s.run Station.takePoolExtend
/-- TAKE_SEAL_CLAIM (R30). -/
def execTakeSealClaim (s : State) : Answer := s.run Station.takeSealClaim
/-- TAKE_SEAL_DONE (R31). -/
def execTakeSealDone (s : State) : Answer := s.run Station.takeSealDone
/-- TAKE_SEAL_SPOIL (R31). -/
def execTakeSealSpoil (s : State) : Answer := s.run Station.takeSealSpoil
/-- TAKE_ANNOUNCE (R32). -/
def execTakeAnnounce (s : State) : Answer := s.run Station.takeAnnounce
/-- TAKE_QUERY (R33). -/
def execTakeQuery (s : State) : Answer := s.run Station.takeQuery
/-- TAKE_STATE (R33). -/
def execTakeState (s : State) : Answer := s.run Station.takeState

end Sys2Proof.Machine
end

