-- ==== Sys2Proof/Machine/Report.lean ====
section
/-! DEFINITION. The Report Unit (chapter 10): STATE, the query notice, the lamp timer. -/

namespace Sys2Proof.Machine

namespace Station

/-- R192, the part of a STATE that belongs to one socket. -/
def socketReport (st : Station) (s : Socket) : SocketReport :=
  let c := st.ctx s
  let i := st.incSocket s
  { insertion := i.state.code
    run := c.run.code
    cause := if c.run = .out then (match c.outCause with | some x => x.code | none => 0) else i.joinFault.code
    detect := match i.probe with | some p => p.detect.code | none => DetectClass.none.code
    changes := codeOf i.changes
    overburden := codeOf i.overburdenFaults
    openFaults := codeOf i.openFaults }

/-- R192: the station's state at this moment. -/
def stateReport (st : Station) : StateReport :=
  { status := match st.cfl.status with | some x => x.code | none => 0
    stationByte := stationByte st.bmr.phase st.lkc.link st.rpu.ownFault
    objections := BitVec.ofNat 16 st.rpu.objectionTotal
    ignored := BitVec.ofNat 16 st.rpu.ignored
    run := st.bmr.runNo
    step := match st.bmr.step with | some k => codeOf k | none => 0xFF
    sockets := .tabulate st.socketReport }

/-- A STATE is built and placed, with run number 0 (R192). -/
def placeState (st : Station) : Station := st.placeFrame 0 (.state st.stateReport)

/-- The STATE entry of the outbound queue, if any (R191). -/
def stateEntry (st : Station) : Option OutEntry := st.lkc.outbound.find? fun e => isState e.body

/-- R191, the rows for one query notice. -/
def answerQuery (st : Station) : Station :=
  match st.stateEntry with
  | some e =>
    if e.place = .onWire then { st with rpu := { st.rpu with queryPending := true } } else st
  | none => if st.rpu.queryPending then st else st.placeState

/-- QUERY_NOTICE: the RPU takes one query notice (R191). -/
def queryNotice (st : Station) : Station :=
  match st.rpu.queries with
  | 0 => st
  | n + 1 => { st with rpu := { st.rpu with queries := n } }.answerQuery

/-- The STATE on the wire has been kept for resending, so it answers the pending query (R191). -/
def dropPendingQuery (st : Station) : Station := { st with rpu := { st.rpu with queryPending := false } }

/-- The STATE on the wire has been published: a pending query gets a fresh STATE (R191). -/
def settlePendingQuery (st : Station) : Station :=
  if st.rpu.queryPending then st.dropPendingQuery.placeState else st

/-- LAMP_TIMER: 125 ms of the shared lamp timer pass; the slow phase turns every fourth time (R195). -/
def lampTimer (st : Station) : Station := { st with rpu := { st.rpu with lampPhase := st.rpu.lampPhase + 1 } }

end Station

/-- QUERY_NOTICE (R191). -/
def execQueryNotice (s : State) : Answer := s.run Station.queryNotice

/-- LAMP_TIMER (R195). -/
def execLampTimer (s : State) : Answer := s.run Station.lampTimer

end Sys2Proof.Machine
end

