-- ==== Sys2Proof/Machine/Link.lean ====
section
/-! DEFINITION. The Link Controller (chapter 2): rounds, frames, the objection slot, the queues, link reset and bench fault. -/

namespace Sys2Proof.Machine

/-! ### Rounds (R42 to R45) -/

/-- The slot of a node is marked (R42). -/
def slotMarked (marks : W32) (n : Node) : Bool := marks.getLsbD n.val

/-- The nodes with a marked slot, in ascending order. -/
def markedNodes (marks : W32) : List Node := (List.finRange 32).filter (slotMarked marks)

/-- The first marked node after the rotating ID, in ascending cyclic order (R43 check 3). -/
def firstAfter (rot : Node) (marks : W32) : Option Node :=
  match (markedNodes marks).find? fun n => decide (rot < n) with
  | some n => some n
  | none => (markedNodes marks).head?

/-- The decision of a round (R43). -/
inductive RoundDecision where
  | urgent (winner : Node)
  | hold
  | ordinary (winner : Node)
  | free
  deriving DecidableEq, Repr

/-- R43, the checks in order. -/
def decideRound (rot : Node) (u o : W32) (hold : Bool) : RoundDecision :=
  match (markedNodes u).head? with
  | some w => .urgent w
  | none =>
    if hold then .hold
    else
      match firstAfter rot o with
      | some w => .ordinary w
      | none => .free

/-- The rotating ID a clean ordinary frame sets (R44). A sender above 31 is no node number (log 8). -/
def rotatingOf (sender : Byte) : Node :=
  if h : sender.toNat < 32 then ⟨sender.toNat, h⟩ else Config.foreignRotatingId sender

/-! ### Markers (R53) -/

def Entry.isMarker : Entry → Bool
  | .frame _ _ => false
  | .linkReset => true
  | .benchFault => true

/-- The markers behind the queue's last frame (R53). -/
def tailMarkers (q : List Entry) : List Entry := q.reverse.takeWhile Entry.isMarker

/-- R53: a marker merges with a tail marker of its kind; otherwise it is appended. -/
def placeMarker (q : List Entry) (m : Entry) : List Entry := if (tailMarkers q).contains m then q else q ++ [m]

namespace Station

def modLkc (st : Station) (f : Lkc → Lkc) : Station := { st with lkc := f st.lkc }

/-- The medium is FREE: no frame is in hand. -/
def freeMedium (l : Lkc) : Lkc :=
  { l with medium := .free, ordinary := false, followed := none, mark := false, stopped := false }

/-- IDLE_INTERVAL (R40). -/
def idleInterval (st : Station) : Station :=
  if st.started ∧ st.lkc.link = .listen ∧ st.lkc.lrst = false then
    st.modLkc fun l => { freeMedium l with link := .active }
  else st

/-- The head of the outbound queue becomes the candidate (R42). -/
def takeCandidate : List OutEntry → List OutEntry
  | [] => []
  | e :: es => { e with place := .candidate } :: es

/-- ROUND_START_MARK (R42): the mark is seen alike whoever drives it. A station has a candidate in the round exactly when it
was itself to drive the mark. -/
def roundStart (st : Station) : Station :=
  if st.lkc.medium = .free then
    st.modLkc fun l =>
      { l with medium := .round, outbound := if st.drivesRoundStart then takeCandidate l.outbound else l.outbound }
  else st

/-- The slots this station marks for its candidate (R42). -/
def ownMarks (st : Station) (urgent : Bool) : W32 :=
  match st.entryAt .candidate with
  | some e => if urgentBody e.body = urgent then 1#32 <<< st.cfl.node.val else 0
  | none => 0

/-- The station wins: its candidate goes on the wire, and the objection count passes to it (R45, R50; log 12). -/
def putOnWire (l : Lkc) : Lkc :=
  { l with
    objections := if l.outbound.any (fun e => e.place == .candidate && e.counted) then l.objections else 0
    outbound := l.outbound.map fun e =>
      if e.place = .candidate then { e with place := .onWire } else { e with counted := false } }

/-- A round with a winner: the medium is in FRAME (R37, R45). -/
def roundWon (st : Station) (w : Node) (ordinary : Bool) : Station :=
  st.modLkc fun l =>
    let l1 := { freeMedium l with medium := .frame, ordinary := ordinary }
    if w = st.cfl.node ∧ (st.entryAt .candidate).isSome then putOnWire l1
    else { l1 with outbound := returnEntries .candidate l1.outbound }

/-- HOLD_SLOT_END (R43, R44, R45). -/
def holdSlotEnd (u o : W32) (hold : Bool) (st : Station) : Station :=
  if st.lkc.medium = .round then
    match decideRound st.lkc.rotating (u ||| st.ownMarks true) (o ||| st.ownMarks false) (hold || st.marksHold) with
    | .urgent w => st.roundWon w false
    | .ordinary w => (st.modLkc fun l => { l with rotating := w }).roundWon w true
    | .hold =>
      st.modLkc fun l =>
        { l with medium := .holdWait, holdWait := some Config.holdWaitMs, outbound := returnEntries .candidate l.outbound }
    | .free => st.modLkc fun l => { freeMedium l with outbound := returnEntries .candidate l.outbound }
  else st

/-- FRAME_START_LIMIT (R37): nothing has been sent, nothing is counted. -/
def frameStartLimit (st : Station) : Station :=
  if st.lkc.medium = .frame then
    st.modLkc fun l => { freeMedium l with outbound := returnEntries .onWire l.outbound }
  else st

/-- HOLD_WAIT_END (R37). -/
def holdWaitEnd (st : Station) : Station :=
  if st.lkc.medium = .holdWait then st.modLkc fun l => { l with medium := .free, holdWait := none } else st

/-! ### Frames (R38, R46) -/

/-- The station follows a frame: in FRAME, or in LISTEN before it has found the medium (R40; log 9). -/
def follows (st : Station) : Bool :=
  st.lkc.medium == .frame || (st.started && st.lkc.link == .listen && st.lkc.medium == .unknown)

/-- An outbound entry as the frame the LKC sends (R55). -/
def sentFrame (st : Station) (e : OutEntry) : Frame := { sender := codeOf st.cfl.node.val, run := e.run, body := e.body }

/-- The bytes of the frame on LDAT: this station's own while it drives it (R55, R196; log 10). -/
def wireBytes (st : Station) (seen : List Byte) : List Byte :=
  match st.entryAt .onWire with
  | some e => if st.lkc.stopped then seen else (st.sentFrame e).encode
  | none => seen

/-- R19: the veto of a synced station. -/
def vetoes (st : Station) (f : Frame) : Bool :=
  match f.body with
  | .runOpen slot fp _ _ => st.synced && (!st.lkc.inbound.isEmpty || (st.runOpenRefusal f.run slot fp).isSome)
  | _ => false

/-- R46, checks 4 and 5 on a frame that passed checks 1 to 3. -/
def rejects (st : Station) (f : Frame) : Bool :=
  decide (Config.inboundRoom ≤ frameFill st.lkc.inbound) || st.vetoes f

/-- Whether the round behind a frame was decided in the ordinary window (R44). A station that has followed no round knows it
from the frame's kind: BYPASS entries are urgent, all others ordinary (R54; log 39). DESIGN CHOICE (log 47): a frame that fails
checks 1 to 3 of R46, and so has no kind to go by, is not ordinary there. The manual does not say. -/
def ordinaryRound (l : Lkc) (f : Option Frame) : Bool :=
  if l.medium = .unknown then
    match f with
    | some x => !urgentBody x.body
    | none => false
  else l.ordinary

/-- A frame has ended: the objection slot follows, and the mark is what the checks say of the frame (R46). -/
def endFrame (st : Station) (f : Option Frame) : Station :=
  let judged := match f with | some x => st.rejects x | none => true
  st.modLkc fun l =>
    { l with medium := .objection, ordinary := ordinaryRound l f, followed := f, mark := l.link != .listen && judged }

/-- FRAME_END (R46). -/
def frameEnd (bytes : List Byte) (st : Station) : Station :=
  if st.follows then st.endFrame (readFrame (st.wireBytes bytes)) else st

/-- EARLY_END_SILENCE (R38). -/
def earlyEnd (st : Station) : Station := if st.follows then st.endFrame none else st

/-- R38, the phases in which a violation can be seen. -/
def violationSeen (m : Medium) : Violation → Bool
  | .strayStart => m == .free || m == .round || m == .holdWait || m == .objection
  | .overrun => m == .objection

/-- FRAMING_VIOLATION (R57). -/
def framingViolation (v : Violation) (st : Station) : Station :=
  if st.lkc.link = .active ∧ violationSeen st.lkc.medium v then
    st.modLkc fun l => { l with ownLrst := some Config.lrstAssertMs }
  else st

/-- READBACK_FAILURE (R49). -/
def readbackFailure (st : Station) : Station :=
  if st.lkc.medium = .frame ∧ st.driving then st.modLkc fun l => { l with stopped := true } else st

/-! ### The objection slot (R47 to R51) -/

/-- The body of the entry on the wire, when it satisfies a test. -/
def onWireIs (st : Station) (p : Body → Bool) : Bool :=
  match st.entryAt .onWire with
  | some e => p e.body
  | none => false

/-- R47 at the sender: the entry leaves the queue, the count returns to 0, and what waited for it is placed (R55, R191). -/
def publish (st : Station) : Station :=
  let st1 := st.modLkc fun l => { l with outbound := l.outbound.filter fun e => e.place != .onWire, objections := 0 }
  let st2 := if st.onWireIs inAnnouncePlace then st1.placeDeferredJoin else st1
  if st.onWireIs isState then st2.settlePendingQuery else st2

/-- An entry whose frame was objected to: kept and counted, or removed when its withdrawal is pending (R48, R50, R56). -/
def keepObjected (e : OutEntry) : Option OutEntry :=
  if e.place = .onWire then (if e.withdrawn then none else some { e with place := .queued, counted := true }) else some e

/-- An objection to this station's frame (R48, R49, R50, R193). -/
def countObjection (st : Station) : Station :=
  let n := satSucc Config.objectionLimit st.lkc.objections
  let st1 := { st with
    lkc := { st.lkc with objections := n, outbound := st.lkc.outbound.filterMap keepObjected }
    rpu := { st.rpu with objectionTotal := satSucc Config.counterMax st.rpu.objectionTotal } }
  let st2 := if st.onWireIs isState then st1.dropPendingQuery else st1
  if n = Config.objectionLimit ∧ st.lkc.link = .active then st2.enterMute .objectionLimit else st2

/-- R51: another node carries this station's number. -/
def duplicateCheck (st : Station) (f : Frame) (own : Bool) : Station :=
  if own = false ∧ f.sender = codeOf st.cfl.node.val then
    if st.lkc.link = .active then st.enterMute .duplicate else st.assertFlt .duplicate
  else st

/-- The sender's own part of a slot's outcome (R47, R48, R49). -/
def ownOutcome (st : Station) (clean : Bool) : Station :=
  match st.entryAt .onWire with
  | none => st
  | some _ => if clean ∧ st.lkc.stopped = false then st.publish else st.countObjection

/-- R44: a clean frame after an ordinary round sets the rotating ID. -/
def alignRotating (ordinary : Bool) (f : Frame) (l : Lkc) : Lkc :=
  if ordinary then { l with rotating := rotatingOf f.sender } else l

/-- A clean slot at an ACTIVE or MUTE station (R47, in its order). -/
def cleanSlot (st : Station) : Station :=
  match st.lkc.followed with
  | none => st.ownOutcome true
  | some f =>
    let own := st.driving
    (((st.modLkc fun l => { l with inbound := l.inbound ++ [.frame f own] }).ownOutcome true).modLkc
      (alignRotating st.lkc.ordinary f)).duplicateCheck f own

/-- A slot's end at a station in LISTEN: it becomes ACTIVE and does not receive the frame (R40, R44). DESIGN CHOICE (log 47): the
clean slot of a frame that fails checks 1 to 3 of R46 leaves the rotating ID, since no sender was read from it. The manual does
not say. -/
def leaveListen (st : Station) (clean : Bool) : Station :=
  st.modLkc fun l =>
    let l1 := match l.followed with
      | some f => if clean then alignRotating l.ordinary f l else l
      | none => l
    { l1 with link := .active }

/-- OBJECTION_SLOT_END (R47, R48): the slot is objected when another node marked it or this station judged the frame so
(R46). At a station that readback stopped, its attempt is counted whatever the slot shows, and the mark it drives for the
stop is not counted against the frame of the other sender, which may pass clean (R49, R51; log 7). -/
def objectionSlotEnd (marked : Bool) (st : Station) : Station :=
  if st.lkc.medium = .objection then
    let clean := !(marked || st.lkc.mark)
    let st1 :=
      if st.lkc.link = .listen then st.leaveListen clean
      else if clean then st.cleanSlot
      else st.ownOutcome false
    st1.modLkc freeMedium
  else st

/-! ### Link reset and bench fault (R57 to R60) -/

/-- The frame in flight is void: its entry stays, unless withdrawn, and a pending query is answered by it (R58, R60,
R191). -/
def voidFrame (st : Station) : Station :=
  let st1 := st.modLkc fun l => { l with outbound := returnEntries .onWire l.outbound }
  if st.onWireIs isState then st1.dropPendingQuery else st1

/-- R53: markers are placed in ACTIVE and MUTE. -/
def mark (st : Station) (m : Entry) : Station :=
  st.modLkc fun l => if l.link = .listen then l else { l with inbound := placeMarker l.inbound m }

/-- R58. -/
def resetLink (st : Station) : Station :=
  (st.voidFrame.modLkc fun l =>
    { freeMedium l with medium := .reset, holdWait := none, outbound := returnEntries .candidate l.outbound, rotating := 31,
                        objections := 0 }).mark .linkReset

/-- LRST_RISING_EDGE (R58). During start-up the LKC takes no account of LRST but its level (R181). -/
def lrstRising (st : Station) : Station :=
  if st.lkc.lrst = false then
    let st1 := st.modLkc fun l => { l with lrst := true }
    if st.started then st1.resetLink else st1
  else st

/-- LRST_RELEASED (R37): the line is released when no node asserts it. -/
def lrstReleased (st : Station) : Station :=
  if st.lkc.lrst ∧ st.lkc.ownLrst = none then
    st.modLkc fun l =>
      let l1 := { l with lrst := false }
      if l.medium = .reset then freeMedium l1 else l1
  else st

/-- OWN_LRST_END (R57). -/
def ownLrstEnd (st : Station) : Station := st.modLkc fun l => { l with ownLrst := none }

/-- R60: the medium becomes FREE when the edge comes in FRAME or OBJECTION. DESIGN CHOICE (log 46): at an edge while a station in
LISTEN that has not found the medium follows its first frame, the medium stays UNKNOWN. R61 has FREE when a frame was in flight
and a phase that is unknown until R40 finds it, and does not say which holds there. -/
def faultFrame (st : Station) : Station :=
  if st.lkc.medium = .frame ∨ st.lkc.medium = .objection then st.voidFrame.modLkc freeMedium else st

/-- FLT_RISING_EDGE (R60). -/
def fltRising (st : Station) : Station :=
  if st.lkc.flt = false then
    let st1 := st.modLkc fun l => { l with flt := true }
    if st.started then st1.faultFrame.mark .benchFault else st1
  else st

/-- FLT_RELEASED (R60): the line is released when no node asserts it. -/
def fltReleased (st : Station) : Station :=
  if st.lkc.flt ∧ st.lkc.ownFlt = none then st.modLkc fun l => { l with flt := false } else st

/-- OWN_FLT_END (R59). An assertion that a later cause has restarted does not end here. -/
def ownFltEnd (st : Station) : Station := if st.lkc.ownFlt.ranOut then st.modLkc fun l => { l with ownFlt := none } else st

/-- MIRROR_CHECK_NOTICE (R31, R59). -/
def mirrorCheckNotice (st : Station) : Station :=
  match st.lkc.mirrorChecks with
  | 0 => st
  | n + 1 => (st.modLkc fun l => { l with mirrorChecks := n }).assertFlt .mirrorCheck

end Station

/-- IDLE_INTERVAL (R40). -/
def execIdleInterval (s : State) : Answer := s.run Station.idleInterval
/-- ROUND_START_MARK (R42). -/
def execRoundStartMark (s : State) : Answer := s.run Station.roundStart
/-- HOLD_SLOT_END (R43). -/
def execHoldSlotEnd (u o : W32) (hold : Bool) (s : State) : Answer := s.run (Station.holdSlotEnd u o hold)
/-- FRAME_START_LIMIT (R37). -/
def execFrameStartLimit (s : State) : Answer := s.run Station.frameStartLimit
/-- HOLD_WAIT_END (R37). -/
def execHoldWaitEnd (s : State) : Answer := s.run Station.holdWaitEnd
/-- FRAME_END (R46). -/
def execFrameEnd (bytes : List Byte) (s : State) : Answer := s.run (Station.frameEnd bytes)
/-- EARLY_END_SILENCE (R38). -/
def execEarlyEndSilence (s : State) : Answer := s.run Station.earlyEnd
/-- FRAMING_VIOLATION (R57). -/
def execFramingViolation (v : Violation) (s : State) : Answer := s.run (Station.framingViolation v)
/-- READBACK_FAILURE (R49). -/
def execReadbackFailure (s : State) : Answer := s.run Station.readbackFailure
/-- OBJECTION_SLOT_END (R47). -/
def execObjectionSlotEnd (marked : Bool) (s : State) : Answer := s.run (Station.objectionSlotEnd marked)
/-- LRST_RISING_EDGE (R58). -/
def execLrstRisingEdge (s : State) : Answer := s.run Station.lrstRising
/-- LRST_RELEASED (R37). -/
def execLrstReleased (s : State) : Answer := s.run Station.lrstReleased
/-- OWN_LRST_END (R57). -/
def execOwnLrstEnd (s : State) : Answer := s.run Station.ownLrstEnd
/-- FLT_RISING_EDGE (R60). -/
def execFltRisingEdge (s : State) : Answer := s.run Station.fltRising
/-- OWN_FLT_END (R59). -/
def execOwnFltEnd (s : State) : Answer := s.run Station.ownFltEnd
/-- MIRROR_CHECK_NOTICE (R31). -/
def execMirrorCheckNotice (s : State) : Answer := s.run Station.mirrorCheckNotice
/-- FLT_RELEASED (R60). -/
def execFltReleased (s : State) : Answer := s.run Station.fltReleased

end Sys2Proof.Machine
end

