-- ==== Sys2Proof/Machine/Port.lean ====
section
/-! DEFINITION. The Meter Port Controller (chapter 7): bursts, exchanges, the line's rest. -/

namespace Sys2Proof.Machine

/-- What a line does when an order becomes ready: it is sent at once, or at the end of the rest (R152). -/
def readyStage (rest : Timer) : ExchangeStage := if rest.isSome then .waitRest else .sending

/-- A burst starts on the port (R155, R157). -/
def startBurst (b : Burst) (rest : Timer) : Running :=
  { id := b.id, kind := b.kind, order := b.first, rest := b.rest, records := [], stage := readyStage rest }

/-- R152: the rest after an exchange. -/
def restAfter : Result → Nat
  | .timeout => Config.longRestMs
  | .badReply => Config.longRestMs
  | _ => Config.restMs

/-- The port moves on after a burst's end (R160 step 3). -/
def movedUp (p : Port) (rest : Timer) : Port :=
  { running := p.waiting.map fun b => startBurst b rest, waiting := none, rest := rest }

/-- R93, R156: the kinds whose end starts the pulse mask. -/
def startsMask : BurstKind → Bool
  | .probe => false
  | .preset => true
  | .adjust => true
  | .verify => false
  | .seal => false

namespace Station

/-- R160 step 1: the requester of the burst is told. -/
def reportBurst (st : Station) (s : Socket) (r : BurstReport) : Station :=
  match r.kind with
  | .probe => st.tellInc (.probeEnd s r)
  | .preset => st.tellCru (.burstEnd s r)
  | .adjust => st.tellCru (.burstEnd s r)
  | .verify => st.tellCru (.burstEnd s r)
  | .seal => st.tellSlu (.burstEnd s r)

/-- R160 step 2: the mask's 500 ms run from this end. -/
def reportWrite (st : Station) (s : Socket) (k : BurstKind) : Station :=
  if startsMask k then st.tellGcu (.writeBurstEnd s Config.maskMs) else st

/-- The end of an exchange (R152, R155, R160). -/
def endExchange (st : Station) (s : Socket) (x : Running) (outcome : Result) (reply : Option Reply) : Station :=
  let rest : Timer := some (restAfter outcome)
  let records := x.records ++ [{ order := x.order, outcome := outcome, reply := reply }]
  match outcome, x.rest with
  | .ok, o :: os =>
    st.modPort s fun p =>
      { p with running := some { x with order := o, rest := os, records := records, stage := .waitRest }, rest := rest }
  | r, _ =>
    (((st.reportBurst s { id := x.id, kind := x.kind, result := r, records := records }).reportWrite s x.kind).modPort s
      fun p => movedUp p rest)

/-- Where the oldest request of a kind for a socket stands (R157). -/
def pickRequest (s : Socket) (k : BurstKind) : MpcMsg → Option Burst
  | .request x b => if x = s ∧ b.kind = k then some b else none
  | .withdraw _ _ => none

/-- A burst goes to the port (R157). -/
def acceptBurst (b : Burst) (p : Port) : Port :=
  match p.running with
  | none => { p with running := some (startBurst b p.rest) }
  | some _ => { p with waiting := some b }

/-- BURST_REQUEST (R157). With a burst running and another waiting the request is not taken yet (log 21). -/
def burstRequest (s : Socket) (k : BurstKind) (st : Station) : Station :=
  match takeFirst (pickRequest s k) (fun _ => false) st.mpc.inbox with
  | some (b, r) =>
    if (st.port s).running.isSome ∧ (st.port s).waiting.isSome then st
    else { st with mpc := { st.mpc with inbox := r } }.modPort s (acceptBurst b)
  | none => st

/-- The burst a withdrawal for a socket names. -/
def pickWithdrawal (s : Socket) : MpcMsg → Option Nat
  | .withdraw x id => if x = s then some id else none
  | .request _ _ => none

/-- The request of the burst of a number: its withdrawal does not overtake it. -/
def requestsBurst (s : Socket) (id : Nat) : MpcMsg → Bool
  | .request x b => x == s && b.id == id
  | .withdraw _ _ => false

/-- The waiting place after the burst of a number is withdrawn (R158). -/
def withdrawn (id : Nat) (p : Port) : Port :=
  match p.waiting with
  | some b => if b.id = id then { p with waiting := none } else p
  | none => p

/-- BURST_WITHDRAWAL (R158). -/
def burstWithdrawal (s : Socket) (st : Station) : Station :=
  match st.mpc.inbox.findSome? (pickWithdrawal s) with
  | some id =>
    match takeFirst (pickWithdrawal s) (requestsBurst s id) st.mpc.inbox with
    | some (_, r) => { st with mpc := { st.mpc with inbox := r } }.modPort s (withdrawn id)
    | none => st
  | none => st

/-- ORDER_SENT (R150). -/
def orderSent (s : Socket) (st : Station) : Station :=
  match (st.port s).running with
  | some x =>
    if x.stage = .sending then
      st.modPort s fun p => { p with running := some { x with stage := .awaiting [] Config.replyMs } }
    else st
  | none => st

/-- REPLY_RECEIVED (R151). Bytes that come while the port awaits no reply are discarded (R149). -/
def replyReceived (s : Socket) (bytes : List RxByte) (st : Station) : Station :=
  match (st.port s).running with
  | none => st
  | some x =>
    match x.stage with
    | .awaiting rx timer =>
      match receive x.order rx bytes with
      | (some (r, reply), _) => st.endExchange s x r reply
      | (none, rx1) => st.modPort s fun p => { p with running := some { x with stage := .awaiting rx1 timer } }
    | _ => st

/-- REPLY_TIMER_EXPIRY (R151, checks 1 and 5). -/
def replyTimerExpiry (s : Socket) (st : Station) : Station :=
  match (st.port s).running with
  | none => st
  | some x =>
    match x.stage with
    | .awaiting [] _ => st.endExchange s x .timeout none
    | .awaiting _ _ => st.endExchange s x .badReply none
    | _ => st

/-- LINE_REST_END (R152). -/
def lineRestEnd (s : Socket) (st : Station) : Station :=
  if (st.port s).rest.isSome then
    st.modPort s fun p =>
      { p with rest := none,
               running := p.running.map fun x => if x.stage = .waitRest then { x with stage := .sending } else x }
  else st

/-- STRAY_BYTE (R149): the byte is discarded. -/
def strayByte (_ : Socket) (_ : RxByte) (st : Station) : Station := st

end Station

/-- BURST_REQUEST (R157). -/
def execBurstRequest (x : Socket) (k : BurstKind) (s : State) : Answer := s.run (Station.burstRequest x k)
/-- BURST_WITHDRAWAL (R158). -/
def execBurstWithdrawal (x : Socket) (s : State) : Answer := s.run (Station.burstWithdrawal x)
/-- ORDER_SENT (R150). -/
def execOrderSent (x : Socket) (s : State) : Answer := s.run (Station.orderSent x)
/-- REPLY_RECEIVED (R151). -/
def execReplyReceived (p : Position) (bytes : List RxByte) (s : State) : Answer :=
  s.run fun st => st.atPosition p fun x => Station.replyReceived x bytes
/-- REPLY_TIMER_EXPIRY (R151). -/
def execReplyTimerExpiry (x : Socket) (s : State) : Answer := s.run (Station.replyTimerExpiry x)
/-- LINE_REST_END (R152). -/
def execLineRestEnd (x : Socket) (s : State) : Answer := s.run (Station.lineRestEnd x)
/-- STRAY_BYTE (R149). -/
def execStrayByte (p : Position) (b : RxByte) (s : State) : Answer :=
  s.run fun st => st.atPosition p fun x => Station.strayByte x b

end Sys2Proof.Machine
end

