-- ==== Sys2Proof/Machine/PowerOn.lean ====
section
/-! DEFINITION. Power-on reset and the Configuration Loader (chapter 9): straps, read attempts, the configuration, ANNOUNCE. -/

namespace Sys2Proof.Machine

/-- What READING ends with, for the blocks to read (R181, R188). -/
structure Loaded where
  status : ConfigStatus
  station : StationSection
  profiles : Quad (Option Profile)
  slotA : Option RunTable
  slotB : Option RunTable
  deriving DecidableEq, Repr

/-- A station without a usable image (R188, R189). -/
def unusableImage (status : ConfigStatus) : Loaded :=
  { status := status, station := .unusable, profiles := .all4 none, slotA := none, slotB := none }

/-- Where the slots stand in the image (R199). -/
def slotAOffset : Nat := 223
def slotBOffset : Nat := 828

/-- A usable image: a duplicate remap gives way to the identity, and each slot is read on its own (R184, R186, R188). -/
def usableImage (bytes : List Byte) (st : StationSection) (ps : Quad (Option Profile)) : Loaded :=
  let a := readSlot ps bytes slotAOffset
  let b := readSlot ps bytes slotBOffset
  { status := .conditions (duplicateRemap st.remap) a.isNone b.isNone,
    station := if duplicateRemap st.remap then { st with remap := identityRemap } else st,
    profiles := ps, slotA := a, slotB := b }

/-- The fingerprint ANNOUNCE reports for a slot (R187, R190). -/
def reportedFingerprint : Option RunTable → W32
  | some t => t.fingerprint
  | none => 0

/-- R190. -/
def announceBody (l : Loaded) : Body :=
  .announce l.status.code (reportedFingerprint l.slotA) (reportedFingerprint l.slotB) (maskByte l.station.enable)

namespace Station

/-- R181: the configuration is held and handed on, the ANNOUNCE placed with run number 0, the INC told. -/
def enterRunning (st : Station) (l : Loaded) : Station :=
  let st1 := { st with
    cfl := { st.cfl with
      stage := .running, retry := none, status := some l.status, station := some l.station, profiles := l.profiles,
      slotA := l.slotA, slotB := l.slotB }
    cru := { st.cru with
      sockets := .tabulate fun s => { table := freshTable (l.profiles.get s), request := .none } } }
  (st1.placeFrame 0 (announceBody l)).tellInc .startUpEnd

/-- POWER_ON_RESET_END (R179, R180): the straps are sampled and READING begins; the wired lines are taken as found (R92). -/
def powerOnResetEnd (straps : BitVec 5) (rdyHigh lrst flt : Bool) (st : Station) : Station :=
  if st.cfl.stage = .inReset then
    { st with
      cfl := { st.cfl with stage := .reading, node := ⟨straps.toNat, straps.isLt⟩ }
      gcu := { st.gcu with rdy := rdyHigh }
      lkc := { st.lkc with lrst := lrst, flt := flt } }
  else st

/-- The end of a read attempt (R182, R183). -/
def attemptEnd (answer : Option (List Byte)) (st : Station) : Station :=
  if st.cfl.stage = .reading then
    let st1 := { st with cfl := { st.cfl with attempts := st.cfl.attempts + 1 } }
    match judgeImage answer with
    | .fails status again =>
      if again ∧ st1.cfl.attempts < Config.maxAttempts then
        { st1 with cfl := { st1.cfl with stage := .retryWait, retry := some Config.retryMs } }
      else st1.enterRunning (unusableImage status)
    | .passes sec ps => st1.enterRunning (usableImage (answer.getD []) sec ps)
  else st

/-- STORE_CLOCK_HELD_TIMEOUT: the attempt ends with no answer (R182). -/
def clockHeldTimeout (st : Station) : Station := st.attemptEnd none

/-- READ_RETRY_TIMER: the next attempt starts (R182). -/
def readRetry (st : Station) : Station :=
  if st.cfl.stage = .retryWait then { st with cfl := { st.cfl with stage := .reading, retry := none } } else st

end Station

/-- POWER_ON_RESET (R179): every block at its power-on value; the commands that wait stay. -/
def execPowerOnReset (s : State) : Answer := .next { State.reset with pending := s.pending }

/-- POWER_ON_RESET_END (R179). -/
def execPowerOnResetEnd (straps : BitVec 5) (rdyHigh lrst flt : Bool) (s : State) : Answer :=
  .next { s with st := s.st.powerOnResetEnd straps rdyHigh lrst flt }

/-- READ_ATTEMPT_END (R183). -/
def execReadAttemptEnd (answer : Option (List Byte)) (s : State) : Answer := s.run (Station.attemptEnd answer)

/-- STORE_CLOCK_HELD_TIMEOUT (R182). -/
def execStoreClockHeldTimeout (s : State) : Answer := s.run Station.clockHeldTimeout

/-- READ_RETRY_TIMER (R182). -/
def execReadRetryTimer (s : State) : Answer := s.run Station.readRetry

end Sys2Proof.Machine
end

