-- ==== Sys2Proof/Machine/Sealing.lean ====
section
/-! DEFINITION. The Seal Unit (chapter 8): verification, claims, seal records, the seal burst and its outcome. -/

namespace Sys2Proof.Machine

/-! ### The seal record (R169, R171, R172) -/

/-- The 16-bit pattern of a channel value in a seal record (R169). -/
def channelPattern : Option Int → W16
  | some v => BitVec.ofInt 16 v
  | none => 0x8000

/-- The orders that follow WRITE_SEAL in a SEAL burst (R171). -/
def sealTail : List Order := [.lock, .readSeal]

/-- The lock state a LOCK reply carried (R172 check 3). -/
def lockReply : List ExchangeRecord → Option Bool
  | [] => none
  | r :: rs =>
    match r.reply with
    | some (.lock l) => some l
    | _ => lockReply rs

/-- What a READ_SEAL reply carried (R172 check 4). -/
def sealReply : List ExchangeRecord → Option (List Byte)
  | [] => none
  | r :: rs =>
    match r.reply with
    | some (.readSeal p) => p
    | _ => sealReply rs

/-- R172, the checks in order: the spoil cause, or nothing when the meter is sealed. -/
def judgeSeal (f : SealFields) (r : BurstReport) : Option SpoilCause :=
  if r.result = .locked then some .locked
  else if r.result ≠ .ok then some .svcFail
  else if lockReply r.records ≠ some true then some .svcFail
  else if sealReply r.records ≠ some f.bytes then some .sealMismatch
  else none

/-- R176: the cause of a number spoiled at the end of the run. -/
def endSpoil : EndCause → SpoilCause
  | .aborted => .aborted
  | .complete => .fault
  | .fault => .fault
  | .noneLeft => .fault

namespace Station

/-- A change of the socket's run state that the SLU asks of the STC (R163). -/
def setRun (st : Station) (s : Socket) (r : RunState) : Station := st.modCtx s fun c => { c with run := r }

/-- The socket goes OUT with the roster entry's out cause (R164, R165, R176). -/
def outByRoster (st : Station) (s : Socket) : Station := st.modCtx s (RunCtx.toOut (st.rosterCause s))

/-- R166: the socket's one SEAL_CLAIM. -/
def claim (st : Station) (s : Socket) : Station :=
  (st.placeFrame st.bmr.runNo (.sealClaim (codeOf s.val))).setRun s .claiming

/-- R164, the checks in order. -/
def takeHandOver (st : Station) (s : Socket) : Station :=
  if (st.ctx s).run ≠ .done then st
  else if st.bmr.phase = .ended then st.outByRoster s
  else if st.anyMark s then
    (((st.modSlu s fun x => { x with request := .verify }).setRun s .verifying).tellCru (.verifyRequest s))
  else st.claim s

/-- HAND_OVER (R164): hand-overs are taken in the order in which they were made. One of a closed run that an SLU already at
the next run takes acts by R164 as it stands (log 51). -/
def handOver (st : Station) : Station :=
  st.sluReport (fun m => match m with | .handOver s => some s | _ => none) fun s st => st.takeHandOver s

/-- R165, by the mirror's phase p at the report. DESIGN CHOICE (log 41): for an outcome reported in a phase R165 gives no row
(JOINING or STEPPING of a next run whose run-opened notice the CRU has yet to take) the ENDED row stands. A claim placed for
an outcome that was reported in SEALING and is taken after a next run has opened carries the number the header then holds
(R166; log 26). -/
def takeVerification (st : Station) (s : Socket) (ok : Bool) (p : Phase) : Station :=
  let st1 := st.modSlu s fun x => { x with request := .none }
  if p = .sealing then
    if ok then st1.claim s else st1.modCtx s (RunCtx.toOut .verifyFail)
  else st1.outByRoster s

/-- VERIFICATION_OUTCOME (R165). -/
def verificationOutcome (s : Socket) (st : Station) : Station :=
  st.sluReport (fun m => match m with | .verification x ok p => if x = s then some (ok, p) else none | _ => none)
    fun (ok, p) st => if (st.ctx s).run = .verifying then st.takeVerification s ok p else st

/-- The CRU's value of a channel (R148). -/
def channelValue (st : Station) (s : Socket) (c : Channel) : Option Int :=
  match st.channel s c with
  | some r => r.current
  | none => none

/-- R169, R170: the written fields of a record built now. -/
def sealFields (st : Station) (s : Socket) (number : Nat) : SealFields :=
  { number := BitVec.ofNat 32 number, run := st.bmr.runNo, fingerprint := st.bmr.fingerprint,
    node := codeOf st.cfl.node.val, socket := codeOf s.val, digest := verdictDigest (st.ctx s).verdicts,
    channels := .tabulate fun c => channelPattern (st.channelValue s c) }

/-- The socket takes its number: held number, record, SEAL burst, SEALING (R167, R168, R169, R171). -/
def takeNumber (st : Station) (s : Socket) (number : Nat) : Station :=
  let f := st.sealFields s number
  ((st.modSlu s fun _ =>
      { held := some number, record := some { fields := f, status := .pending }, request := .seal st.mpc.nextBurst }).setRun
    s .sealing).requestBurst s .seal (.writeSeal f) sealTail

/-- R167: the local out cause of a refused claim. -/
def refusedCause (st : Station) (s : Socket) : OutCause :=
  if (st.ownEntry s).state = .out then st.rosterCause s else .fault

/-- R167. -/
def takeOwnClaim (st : Station) (s : Socket) (r : ClaimResult) : Station :=
  match r with
  | .assigned n => st.takeNumber s n
  | .waiting => st.setRun s .sealWait
  | .refused => st.modCtx s (RunCtx.toOut (st.refusedCause s))

/-- OWN_CLAIM_NOTICE (R167). -/
def ownClaimNotice (st : Station) : Station :=
  st.sluNotice (fun m => match m with | .ownClaim s r => some (s, r) | _ => none) fun (s, r) st =>
    if (st.ctx s).run = .claiming then st.takeOwnClaim s r else st

/-- ASSIGNMENT_NOTICE (R168). -/
def assignmentNotice (st : Station) : Station :=
  st.sluNotice (fun m => match m with | .assignment s n => some (s, n) | _ => none) fun (s, n) st =>
    if (st.ctx s).run = .sealWait then st.takeNumber s n else st

/-- R173, the sealed row. -/
def placeDone (st : Station) (s : Socket) (f : SealFields) : Station :=
  ((st.modSlu s fun x => { x with record := some { fields := f, status := .written }, request := .none }).placeFrame f.run
    (.sealDone (codeOf s.val) f.number f.digest)).setRun s .sealed

/-- R173, the spoiled row. -/
def placeSpoil (st : Station) (s : Socket) (f : SealFields) (c : SpoilCause) : Station :=
  ((st.modSlu s fun x => { x with record := some { fields := f, status := .spoiled }, request := .none }).placeFrame f.run
    (.sealSpoil (codeOf s.val) f.number c.code)).modCtx s (RunCtx.toOut .sealSpoiled)

/-- R172, R173: the outcome of a record that is PENDING. -/
def takeSealEnd (st : Station) (s : Socket) (r : BurstReport) : Station :=
  match (st.sluSocket s).request, (st.sluSocket s).record with
  | .seal b, some rec =>
    if b = r.id ∧ rec.status = .pending then
      match judgeSeal rec.fields r with
      | none => st.placeDone s rec.fields
      | some c => st.placeSpoil s rec.fields c
    else st
  | _, _ => st

/-- SEAL_BURST_END (R172). -/
def sealBurstEnd (s : Socket) (st : Station) : Station :=
  st.sluReport (fun m => match m with | .burstEnd x r => if x = s then some r else none | _ => none) fun r st =>
    st.takeSealEnd s r

/-- The message that asks for a burst. -/
def asksBurst (b : Nat) : MpcMsg → Bool
  | .request _ x => x.id == b
  | .withdraw _ _ => false

/-- The burst has not started: it waits at the port, or its request waits there (R158, R176; log 20). -/
def burstWaits (st : Station) (s : Socket) (b : Nat) : Bool :=
  (match (st.port s).waiting with | some w => w.id == b | none => false) || st.mpc.inbox.any (asksBurst b)

/-- The burst is withdrawn: no order of it is sent (R158). -/
def dropBurst (st : Station) (s : Socket) (b : Nat) : Station :=
  let st1 := { st with mpc := { st.mpc with inbox := st.mpc.inbox.filter fun m => !asksBurst b m } }
  st1.modPort s fun p =>
    match p.waiting with
    | some w => if w.id = b then { p with waiting := none } else p
    | none => p

/-- R176, a SEALING socket. -/
def endSealing (st : Station) (s : Socket) (e : EndCause) : Station :=
  match (st.sluSocket s).request, (st.sluSocket s).record with
  | .seal b, some rec => if st.burstWaits s b then (st.dropBurst s b).placeSpoil s rec.fields (endSpoil e) else st
  | _, _ => st

/-- R176, one socket. -/
def endSealSocket (e : EndCause) (s : Socket) (st : Station) : Station :=
  match (st.ctx s).run with
  | .sealWait => st.outByRoster s
  | .sealing => st.endSealing s e
  | _ => st

/-- SLU_RUN_ENDED (R176). DESIGN CHOICE (log 43): the notice takes the station's sockets in logical order 0..3, so two
SEAL_SPOILs placed at it stand in the queue in that order. The manual gives none. -/
def sluRunEnded (st : Station) : Station :=
  st.sluNotice (fun m => match m with | .ended e => some e | _ => none) fun e st => st.each (endSealSocket e)

/-- SLU_RUN_OPENED (R163). -/
def sluRunOpened (st : Station) : Station :=
  st.sluRunOpenedNotice fun st => { st with slu := { st.slu with sockets := .all4 SluSocket.reset } }

end Station

/-- HAND_OVER (R164). -/
def execHandOver (s : State) : Answer := s.run Station.handOver
/-- VERIFICATION_OUTCOME (R165). -/
def execVerificationOutcome (x : Socket) (s : State) : Answer := s.run (Station.verificationOutcome x)
/-- OWN_CLAIM_NOTICE (R167). -/
def execOwnClaimNotice (s : State) : Answer := s.run Station.ownClaimNotice
/-- ASSIGNMENT_NOTICE (R168). -/
def execAssignmentNotice (s : State) : Answer := s.run Station.assignmentNotice
/-- SEAL_BURST_END (R172). -/
def execSealBurstEnd (x : Socket) (s : State) : Answer := s.run (Station.sealBurstEnd x)
/-- SLU_RUN_ENDED (R176). -/
def execSluRunEnded (s : State) : Answer := s.run Station.sluRunEnded
/-- SLU_RUN_OPENED (R163). -/
def execSluRunOpened (s : State) : Answer := s.run Station.sluRunOpened

end Sys2Proof.Machine
end

