-- ==== Sys2Proof/Machine/Steps.lean ====
section
/-! DEFINITION. The Step Controller (chapter 3): joining, settling and the barrier, disturbances, evaluation, verdicts,
pause, bypass and the end of the run. -/

namespace Sys2Proof.Machine

namespace Station

/-! ### The station's JOIN (R65 to R67) -/

/-- No socket is without its join outcome: each is out of JOINING or has its bit in the joined mask (R67). -/
def outcomesComplete (st : Station) : Bool :=
  [0, 1, 2, 3].all fun s : Socket => (st.ctx s).run != .joining || st.stc.joinedMask.get s

/-- The sockets the JOIN names: joined, and not hit by a supervision fault since (R67, R86; log 17). -/
def joinMask (st : Station) : Quad Bool :=
  .tabulate fun s => st.stc.joinedMask.get s && (st.incSocket s).joinFault == .none

/-- The fault code the JOIN carries for a socket (R65, R67). -/
def joinFaultCode (st : Station) (s : Socket) : JoinFault :=
  if !st.enabled s then .disabled else if st.joinMask.get s then .none else (st.incSocket s).joinFault

/-- The body of the station's JOIN (R67). -/
def joinBody (st : Station) : Body :=
  .join (maskByte st.joinMask) st.bmr.fingerprint
    (.tabulate fun s =>
      { cls := if st.joinMask.get s then st.stc.classes.get s else 0, fault := (st.joinFaultCode s).code })

/-- The JOIN is placed once, when every enabled socket has its outcome (R67). -/
def placeJoinIfComplete (st : Station) : Station :=
  if st.stc.joinPlaced = false ∧ st.outcomesComplete then
    let st1 := st.placeJoin st.bmr.runNo st.joinBody
    { st1 with stc := { st1.stc with joinPlaced := true, joinedMask := st.joinMask } }
  else st

/-- STC_RUN_OPENED (R62, R65). A window's end report behind the notice is of the closed run and finds no socket MEASURING
(log 18). DESIGN CHOICE (log 51): every other report behind the notice (a join outcome, a bypass, an adjustment outcome, a
mask's end) stays and is taken as one of the new run, also where the block that made it was still at the closed run. The manual
does not say. -/
def stcRunOpened (st : Station) : Station :=
  st.stcRunOpenedNotice fun h st =>
    { st with stc := { st.stc with
        ctx := .tabulate fun s => { RunCtx.reset with run := if st.enabled s then .joining else .idle },
        joinedMask := .all4 false, classes := .all4 0, joinPlaced := false, slot := h.slot, runEnded := none
        inbox := st.stc.inbox.filter fun m => !m.isWindowEnd } }.placeJoinIfComplete

/-- STC_TABLE_REFUSAL (R66). DESIGN CHOICE (log 48): TABLE_MISMATCH is recorded in the INC as it stands, also where the INC is
already at a run that the mirror has accepted since. The manual does not say. -/
def stcTableRefusal (st : Station) : Station :=
  st.stcNotice (fun m => match m with | .tableRefusal r fp => some (r, fp) | _ => none) fun (r, fp) st =>
    (st.each fun s st => st.modInc s fun i => { i with joinFault := .tableMismatch }).placeJoin r
      (.join 0 fp (.all4 { cls := 0, fault := JoinFault.tableMismatch.code }))

/-- A socket's join outcome (R67). An outcome of a socket that is no longer JOINING changes nothing; one of a closed run's
join that finds the socket JOINING anew is taken as the new join's (log 51). -/
def takeJoinOutcome (st : Station) (s : Socket) (o : JoinOutcome) : Station :=
  if (st.ctx s).run = .joining then
    match o with
    | .joined cls =>
      { st with stc := { st.stc with
        joinedMask := st.stc.joinedMask.set s true, classes := st.stc.classes.set s cls } }.placeJoinIfComplete
    | .fault _ => (st.modCtx s RunCtx.toIdle).placeJoinIfComplete
  else st

/-- JOIN_OUTCOME (R67). -/
def joinOutcome (s : Socket) (st : Station) : Station :=
  st.stcReport (some (.inc s)) (fun m => match m with | .joinOutcome x o => if x = s then some o else none | _ => none)
    fun o st => st.takeJoinOutcome s o

/-- R127: at an applied JOIN the INC places a socket's deferred BYPASS. -/
def placeDeferred (s : Socket) (st : Station) : Station :=
  match (st.incSocket s).deferred with
  | some c => (st.placeBypass s c).modInc s fun i => { i with deferred := none }
  | none => st

/-- OWN_JOIN_APPLIED (R68, R127). DESIGN CHOICE (log 43): the deferred BYPASSes of several sockets are placed in logical order
0..3. The manual gives none. -/
def ownJoinApplied (st : Station) : Station :=
  st.stcNotice (fun m => match m with | .ownJoin true mask => some mask | _ => none) fun mask st =>
    (st.each fun s st =>
      if (maskFlags mask).get s ∧ (st.ctx s).run = .joining then st.modCtx s fun c => { c with run := .joined }
      else st).each placeDeferred

/-- OWN_JOIN_IGNORED (R69, R127). DESIGN CHOICE (log 53): every deferred BYPASS is discarded, also where the JOIN that was
ignored is an earlier one (a table refusal's, whose mask is empty, or a closed run's) and the JOIN that a deferred BYPASS waits
for is still to be taken. The manual does not say. -/
def ownJoinIgnored (st : Station) : Station :=
  st.stcNotice (fun m => match m with | .ownJoin false mask => some mask | _ => none) fun mask st =>
    (st.each fun s st =>
      if (maskFlags mask).get s ∧ (st.ctx s).run = .joining then (st.endJoinLate s).modCtx s RunCtx.toIdle
      else st).each fun s st => st.modInc s fun i => { i with deferred := none }

/-! ### Windows (R74, R75) -/

/-- The settle time of the step the STC is at. -/
def settleMs (st : Station) : Nat := st.curStep.settle

/-- The socket becomes MEASURING with a window opened (R74, R75). -/
def startWindow (st : Station) (s : Socket) : Station :=
  (st.modCtx s fun c => { c with run := .measuring }).openWindow s

/-- A retry window, or what stands in its place (R75, R81). DESIGN CHOICE (log 49): the window opens also while a step-complete
or run-ended notice or a bypass report that will void it is given and not yet taken by the STC, in which R96 does not have it
asked for. The manual does not say. -/
def retry (st : Station) (s : Socket) : Station :=
  if st.bmr.paused then st.modCtx s RunCtx.toHeld
  else if (st.ctx s).disturbed ∨ st.rdyHigh = false then st.modCtx s (RunCtx.toSettling st.settleMs)
  else st.startWindow s

/-! ### Verdicts (R64, R79 to R83) -/

/-- The VERDICT body of a record (R83). -/
def verdictBody (s : Socket) (r : VerdictRecord) : Body :=
  .verdict (codeOf s.val) (codeOf r.step) r.verdict.code r.verdict.causeCode (BitVec.ofInt 32 r.mean)
    (BitVec.ofNat 32 r.spread) (codeOf r.attempts) (codeOf r.adjustments)

/-- R83: the verdict is final. -/
def finalVerdict (st : Station) (s : Socket) (v : Verdict) (mean : Int) (spread attempts adjustments : Nat) : Station :=
  let r : VerdictRecord :=
    { step := st.stc.step, loadPoint := st.curStep.loadPoint, verdict := v, mean := mean, spread := spread,
      attempts := attempts, adjustments := adjustments }
  (st.modCtx s fun c => { c with run := .stepDone, verdicts := c.verdicts ++ [r] }).placeFrame st.bmr.runNo
    (verdictBody s r)

/-- What the checks of R79 decide. -/
inductive Evaluation where
  | retry (c : VerdictCause)
  | pass
  | adjust (c : Channel)
  | fail (c : VerdictCause)
  deriving DecidableEq, Repr

/-- The outcome of an attempt that fails (R79 checks 1 to 3). -/
def failAttempt (remain : Bool) (c : VerdictCause) : Evaluation := if remain then .retry c else .fail c

/-- R79, the checks in order. -/
def evaluate (st : Station) (s : Socket) (r : WindowReport) : Evaluation :=
  let p := st.curStep
  let remain := decide ((st.ctx s).attempt < p.attempts)
  if r.timedOut then failAttempt remain .noPulse
  else if r.samples.any (fun x => x.status == .overRange) then failAttempt remain .overRange
  else if p.spread < r.spread then failAttempt remain .spread
  else if p.lower ≤ r.mean ∧ r.mean ≤ p.upper then .pass
  else
    match adjustChannel p.adjust with
    | some c => if st.adjustable s c ∧ remain then .adjust c else .fail .limit
    | none => .fail .limit

/-- R79: the window's end is evaluated, and its outcome acts. -/
def takeAccuracyEnd (st : Station) (s : Socket) (r : WindowReport) : Station :=
  let st1 := st.modCtx s fun c => { c with lastWindow := some (r.mean, r.spread) }
  let c := st.ctx s
  match st.evaluate s r with
  | .retry _ => (st1.modCtx s fun c => { c with attempt := c.attempt + 1 }).retry s
  | .pass => st1.finalVerdict s .pass r.mean r.spread c.attempt c.adjustments
  | .fail x => st1.finalVerdict s (.fail x) r.mean r.spread c.attempt c.adjustments
  | .adjust ch => (st1.modCtx s fun c => { c with run := .adjusting }).tellCru (.correction s ch r.mean)

/-- ACCURACY_WINDOW_END (R79). -/
def accuracyWindowEnd (s : Socket) (st : Station) : Station :=
  st.stcReport (some (.gcu s)) (fun m => match m with | .accuracyEnd x r => if x = s then some r else none | _ => none) fun r st =>
    if (st.ctx s).run = .measuring then st.takeAccuracyEnd s r else st

/-- CREEP_START_WINDOW_END (R82). -/
def timedWindowEnd (s : Socket) (st : Station) : Station :=
  st.stcReport (some (.gcu s)) (fun m => match m with | .timedEnd x v _ => if x = s then some v else none | _ => none) fun v st =>
    if (st.ctx s).run = .measuring then st.finalVerdict s v 0 0 1 0 else st

/-- R79, R82: what the end of a window leads to. -/
def takeWindowEnd (st : Station) (s : Socket) : WindowEnd → Station
  | .accuracy r => st.takeAccuracyEnd s r
  | .timed v => st.finalVerdict s v 0 0 1 0

/-- A window that ended before the STC asks for its void is evaluated first: its report, given and not yet taken, is taken now
(R105; R77, R88; log 18). A report behind an untaken run-opened notice is not. Mask ends of the socket still untaken came before
its window opened (R94); they find it MEASURING and change nothing (R81). -/
def takeEnded (s : Socket) (st : Station) : Station :=
  if (st.ctx s).run = .measuring then
    match takeFirst (StcMsg.windowEnd s) StcMsg.isRunOpened st.stc.inbox with
    | some (w, r) => { st with stc := { st.stc with inbox := r.filter (· != StcMsg.maskEnd s) } }.takeWindowEnd s w
    | none => st
  else st

/-- The STC is about to ask for the voids of some sockets' windows: those that have ended are evaluated (R105). DESIGN CHOICE
(log 43): several are taken in logical order 0..3. The manual gives none. -/
def beforeVoids (voids : Socket → Bool) (st : Station) : Station :=
  st.each fun s st => if voids s then st.takeEnded s else st

/-! ### Comparison with the roster (R85) -/

/-- The socket's PASS is that of the run's last step, whose end made its entry DONE: the socket is R84's to hand over
(log 14). -/
def passedLast (st : Station) (s : Socket) : Bool :=
  match (st.ctx s).verdicts.getLast? with
  | some r => (st.ctx s).passed && st.bmr.stepCount == some (r.step + 1) && (st.ownEntry s).state == .done
  | none => false

/-- The bench regards the position as gone: its entry is not ACTIVE (R85). At the load-set notice that holds of every socket
(R71). -/
def gone (st : Station) (atLoadSet : Bool) (s : Socket) : Bool :=
  (st.ownEntry s).state != .active && (atLoadSet || !st.passedLast s)

/-- The socket leaves the run without a BYPASS: its window, VERDICT and shunt (R85). -/
def dropSocket (st : Station) (s : Socket) (c : OutCause) : Station :=
  (((st.voidWindow s).withdrawVerdict s).closeShunt s).modCtx s (RunCtx.toOut c)

/-- R85, one socket; JOINED sockets are compared at the load-set notice only. -/
def compareSocket (atLoadSet : Bool) (s : Socket) (st : Station) : Station :=
  if ((st.ctx s).run.stepping ∨ (atLoadSet ∧ (st.ctx s).run = .joined)) ∧ st.gone atLoadSet s then
    st.dropSocket s (st.rosterCause s)
  else st

/-- R85. -/
def compareRoster (st : Station) (atLoadSet : Bool) : Station := st.each (compareSocket atLoadSet)

/-! ### Starting a step (R70, R71) -/

/-- R70: a socket still JOINING at the load-set notice of step 0. -/
def endLateJoin (noneLeft : Bool) (s : Socket) (st : Station) : Station :=
  if (st.ctx s).run = .joining then
    (st.endJoinLate s).modCtx s (if noneLeft then RunCtx.toOut .late else RunCtx.toIdle)
  else st

/-- R71, one socket. -/
def startSocket (k : Nat) (paused : Bool) (s : Socket) (st : Station) : Station :=
  let c := st.ctx s
  if (st.ownEntry s).state = .active ∧ ((k = 0 ∧ c.run = .joined) ∨ (0 < k ∧ c.passed)) then
    st.modCtx s fun c =>
      let c1 := { c with attempt := 1, adjustments := 0, disturbed := false, lastWindow := none }
      if paused then c1.toHeld else c1.toSettling st.settleMs
  else st

/-- STC_LOAD_SET (R70, R71, R85). -/
def stcLoadSet (st : Station) : Station :=
  st.stcNotice (fun m => match m with | .loadSet k p n => some (k, p, n) | _ => none) fun (k, p, n) st =>
    let st1 := (st.beforeVoids (st.gone true)).compareRoster true
    let st2 := if k = 0 then st1.each (endLateJoin n) else st1
    { st2 with stc := { st2.stc with step := k } }.each (startSocket k p)

/-! ### Settling and the barrier (R72 to R75) -/

/-- SETTLE_TIMER_EXPIRY (R72). An expiry that comes after a disturbance finds the timer restarted (R77). -/
def settleExpiry (s : Socket) (st : Station) : Station :=
  if (st.ctx s).run = .settling ∧ (st.ctx s).settle.ranOut then
    if st.masked s then
      st.modCtx s fun c => { c with settle := none, waitMask := true }
    else st.modCtx s RunCtx.toReady
  else st

/-- RDY_RISING_EDGE (R74, R92): the line cannot rise while this station holds it. DESIGN CHOICE (log 49): every READY socket's
window opens (R74), also while a paused, step-complete or run-ended notice or a bypass report that will void it is given and
not yet taken by the STC, in which R96 does not have it asked for. The manual does not say. -/
def rdyRising (st : Station) : Station :=
  if st.gcu.rdy = false ∧ st.rdyPull = false then
    let st1 := { st with gcu := { st.gcu with rdy := true } }
    st1.each fun s st => if (st.ctx s).run = .ready then st.startWindow s else st
  else st

/-! ### Disturbance (R76 to R78) -/

/-- R76, one socket. -/
def disturbSocket (s : Socket) (st : Station) : Station :=
  match (st.ctx s).run with
  | .settling => st.modCtx s fun c => { c with settle := c.settlePeriod, waitMask := false }
  | .ready => st.modCtx s (RunCtx.toSettling st.settleMs)
  | .measuring => (st.voidWindow s).modCtx s (RunCtx.toSettling st.settleMs)
  | .adjusting => st.modCtx s fun c => { c with disturbed := true }
  | .masked => st.modCtx s fun c => { c with disturbed := true }
  | _ => st

/-- A disturbance is taken for all four sockets at once (R76). -/
def disturb (st : Station) : Station := st.each disturbSocket

/-- RDY_FALLING_EDGE (R76, R92). A socket whose window ended before the edge is evaluated before it, and is MEASURING at the
edge only with a new window (R77). -/
def rdyFalling (st : Station) : Station :=
  if st.gcu.rdy then
    let st0 := st.beforeVoids fun _ => true
    let st1 := { st0 with gcu := { st0.gcu with rdy := false } }
    if st1.stc.ctx.toList.any (fun c => c.run == .measuring) then st1.disturb else st1
  else st

/-- STC_DISTURBANCE (R76, R85). -/
def stcDisturbance (st : Station) : Station :=
  st.stcNotice (fun m => match m with | .disturbance => some () | _ => none) fun _ st =>
    ((st.beforeVoids fun _ => true).compareRoster false).disturb

/-- The local out cause at the end of the run (R89). -/
def endOutCause (st : Station) (s : Socket) (e : EndCause) : OutCause :=
  let keeps := (st.ctx s).failed && (st.ownEntry s).out == some .failed
  match e with
  | .aborted => if keeps then .failed else .aborted
  | .fault => if keeps then .failed else .fault
  | .complete => st.rosterCause s
  | .noneLeft => st.rosterCause s

/-- R80: the window whose mean was to be corrected fails the step. -/
def failAdjusted (st : Station) (s : Socket) (x : VerdictCause) : Station :=
  let c := st.ctx s
  let w := c.lastWindow.getD (0, 0)
  st.finalVerdict s (.fail x) w.1 w.2 c.attempt c.adjustments

/-- R80; after the end of the run the socket goes OUT at its completion (R89). -/
def takeAdjusted (st : Station) (s : Socket) (o : AdjustOutcome) : Station :=
  match st.stc.runEnded with
  | some e => st.modCtx s (RunCtx.toOut (st.endOutCause s e))
  | none =>
    match o with
    | .ok => st.modCtx s fun c => { c with run := .masked, adjustments := c.adjustments + 1, attempt := c.attempt + 1 }
    | .adjLimit => st.failAdjusted s .adjLimit
    | .locked => st.failAdjusted s .locked
    | .svcFail => st.failAdjusted s .svcFail

/-- ADJUSTMENT_OUTCOME (R80, R89). One of a closed run that finds the socket ADJUSTING anew is taken as the new one's
(log 51). -/
def adjustmentOutcome (s : Socket) (st : Station) : Station :=
  st.stcReport (some (.cru s)) (fun m => match m with | .adjusted x o => if x = s then some o else none | _ => none) fun o st =>
    if (st.ctx s).run = .adjusting then st.takeAdjusted s o else st

/-- STC_MASK_END (R72, R81). -/
def stcMaskEnd (s : Socket) (st : Station) : Station :=
  st.stcReport (some (.gcu s)) (fun m => match m with | .maskEnd x => if x = s then some () else none | _ => none) fun _ st =>
    if (st.ctx s).run = .masked then st.retry s
    else if (st.ctx s).run = .settling ∧ (st.ctx s).waitMask then st.modCtx s RunCtx.toReady
    else st

/-! ### Step completion (R84) -/

/-- R84, one socket. -/
def completeSocket (last : Bool) (s : Socket) (st : Station) : Station :=
  let c := st.ctx s
  if c.passed then
    if last then ((st.modCtx s fun c => { c with run := .done }).closeShunt s).tellSlu (.handOver s) else st
  else if c.failed then (st.closeShunt s).modCtx s (RunCtx.toOut .failed)
  else st

/-- STC_STEP_COMPLETE (R84, R85). -/
def stcStepComplete (st : Station) : Station :=
  st.stcNotice (fun m => match m with | .stepComplete _ l => some l | _ => none) fun last st =>
    ((st.beforeVoids (st.gone false)).compareRoster false).each (completeSocket last)

/-! ### Local bypass and muting (R86, R87) -/

/-- R86. A report of a closed run's fault acts on the run state it finds (log 51). -/
def takeBypassReport (st : Station) (s : Socket) (cause : OutCause) : Station :=
  let c := st.ctx s
  if c.run.stepping then
    let st0 := st.beforeVoids fun y => y == s || cause != .shed
    let st1 := ((st0.voidWindow s).withdrawVerdict s).modCtx s (RunCtx.toOut cause)
    if cause = .shed then st1 else st1.disturb
  else if c.run = .joined then st.modCtx s (RunCtx.toOut cause)
  else if c.run = .joining then
    if st.stc.joinPlaced ∧ st.stc.joinedMask.get s then st.modCtx s (RunCtx.toOut cause)
    else
      { st with stc := { st.stc with joinedMask := st.stc.joinedMask.set s false } }.modCtx s RunCtx.toIdle
        |>.placeJoinIfComplete
  else st

/-- LOCAL_BYPASS (R86). -/
def localBypass (s : Socket) (st : Station) : Station :=
  st.stcReport (some (.inc s)) (fun m => match m with | .bypass x c => if x = s then some c else none | _ => none) fun c st =>
    st.takeBypassReport s c

/-- MUTE_NOTICE (R87): the pull on RDY is released until power-on reset. -/
def muteNotice (st : Station) : Station :=
  st.stcReport none (fun m => match m with | .mute => some () | _ => none) fun _ st =>
    { st with stc := { st.stc with muted := true } }

/-! ### Pause and resume (R88) -/

/-- R88, the paused notice at one socket. -/
def pauseSocket (s : Socket) (st : Station) : Station :=
  match (st.ctx s).run with
  | .settling => st.modCtx s RunCtx.toHeld
  | .ready => st.modCtx s RunCtx.toHeld
  | .measuring => (st.voidWindow s).modCtx s RunCtx.toHeld
  | _ => st

/-- STC_PAUSED (R88). -/
def stcPaused (st : Station) : Station :=
  st.stcNotice (fun m => match m with | .paused => some () | _ => none) fun _ st =>
    (st.beforeVoids fun _ => true).each pauseSocket

/-- R88, the resumed notice at one socket. -/
def resumeSocket (s : Socket) (st : Station) : Station :=
  if (st.ctx s).run = .held then st.modCtx s (RunCtx.toSettling (st.settleMs + Config.resumeExtraMs)) else st

/-- STC_RESUMED (R88). -/
def stcResumed (st : Station) : Station :=
  st.stcNotice (fun m => match m with | .resumed => some () | _ => none) fun _ st => st.each resumeSocket

/-! ### The end of the run (R89) -/

/-- R89, one socket. -/
def endSocket (e : EndCause) (s : Socket) (st : Station) : Station :=
  match (st.ctx s).run with
  | .joining => (st.endJoinLate s).modCtx s (RunCtx.toOut (st.endOutCause s e))
  | .joined => st.dropSocket s (st.endOutCause s e)
  | .settling => st.dropSocket s (st.endOutCause s e)
  | .ready => st.dropSocket s (st.endOutCause s e)
  | .measuring => st.dropSocket s (st.endOutCause s e)
  | .held => st.dropSocket s (st.endOutCause s e)
  | .stepDone => st.dropSocket s (st.endOutCause s e)
  | .done => st.dropSocket s (st.endOutCause s e)
  | .masked => st.dropSocket s (st.endOutCause s e)
  | _ => st

/-- STC_RUN_ENDED (R89): every socket by its run state, and every open shunt is closed. -/
def stcRunEnded (st : Station) : Station :=
  st.stcNotice (fun m => match m with | .ended e => some e | _ => none) fun e st =>
    let st1 := ((st.beforeVoids fun _ => true).each (endSocket e)).each fun s st => st.closeShunt s
    { st1 with stc := { st1.stc with runEnded := some e } }

end Station

/-- STC_RUN_OPENED (R65). -/
def execStcRunOpened (s : State) : Answer := s.run Station.stcRunOpened
/-- STC_TABLE_REFUSAL (R66). -/
def execStcTableRefusal (s : State) : Answer := s.run Station.stcTableRefusal
/-- JOIN_OUTCOME (R67). -/
def execJoinOutcome (x : Socket) (s : State) : Answer := s.run (Station.joinOutcome x)
/-- OWN_JOIN_APPLIED (R68). -/
def execOwnJoinApplied (s : State) : Answer := s.run Station.ownJoinApplied
/-- OWN_JOIN_IGNORED (R69). -/
def execOwnJoinIgnored (s : State) : Answer := s.run Station.ownJoinIgnored
/-- STC_LOAD_SET (R71). -/
def execStcLoadSet (s : State) : Answer := s.run Station.stcLoadSet
/-- SETTLE_TIMER_EXPIRY (R72). -/
def execSettleTimerExpiry (x : Socket) (s : State) : Answer := s.run (Station.settleExpiry x)
/-- RDY_RISING_EDGE (R74). -/
def execRdyRisingEdge (s : State) : Answer := s.run Station.rdyRising
/-- RDY_FALLING_EDGE (R76). -/
def execRdyFallingEdge (s : State) : Answer := s.run Station.rdyFalling
/-- STC_DISTURBANCE (R76). -/
def execStcDisturbance (s : State) : Answer := s.run Station.stcDisturbance
/-- ACCURACY_WINDOW_END (R79). -/
def execAccuracyWindowEnd (x : Socket) (s : State) : Answer := s.run (Station.accuracyWindowEnd x)
/-- CREEP_START_WINDOW_END (R82). -/
def execCreepStartWindowEnd (x : Socket) (s : State) : Answer := s.run (Station.timedWindowEnd x)
/-- ADJUSTMENT_OUTCOME (R80). -/
def execAdjustmentOutcome (x : Socket) (s : State) : Answer := s.run (Station.adjustmentOutcome x)
/-- STC_MASK_END (R81). -/
def execStcMaskEnd (x : Socket) (s : State) : Answer := s.run (Station.stcMaskEnd x)
/-- STC_STEP_COMPLETE (R84). -/
def execStcStepComplete (s : State) : Answer := s.run Station.stcStepComplete
/-- LOCAL_BYPASS (R86). -/
def execLocalBypass (x : Socket) (s : State) : Answer := s.run (Station.localBypass x)
/-- MUTE_NOTICE (R87). -/
def execMuteNotice (s : State) : Answer := s.run Station.muteNotice
/-- STC_PAUSED (R88). -/
def execStcPaused (s : State) : Answer := s.run Station.stcPaused
/-- STC_RESUMED (R88). -/
def execStcResumed (s : State) : Answer := s.run Station.stcResumed
/-- STC_RUN_ENDED (R89). -/
def execStcRunEnded (s : State) : Answer := s.run Station.stcRunEnded

end Sys2Proof.Machine
end

