-- ==== Sys2Proof/Machine/Dispatch.lean ====
section
/-! DEFINITION. What each command does, one arm per constructor of Instr. -/

namespace Sys2Proof.Machine

def exec (i : Instr) (s : State) : Host.Outcome State Fault Refusal :=
  match i with
  | .powerOnReset => Sys2Proof.Machine.execPowerOnReset s
  | .powerOnResetEnd straps rdyHigh lrst flt => Sys2Proof.Machine.execPowerOnResetEnd straps rdyHigh lrst flt s
  | .readAttemptEnd answer => Sys2Proof.Machine.execReadAttemptEnd answer s
  | .storeClockHeldTimeout => Sys2Proof.Machine.execStoreClockHeldTimeout s
  | .readRetryTimer => Sys2Proof.Machine.execReadRetryTimer s
  | .idleInterval => Sys2Proof.Machine.execIdleInterval s
  | .roundStartMark => Sys2Proof.Machine.execRoundStartMark s
  | .holdSlotEnd urgent ordinary hold => Sys2Proof.Machine.execHoldSlotEnd urgent ordinary hold s
  | .frameStartLimit => Sys2Proof.Machine.execFrameStartLimit s
  | .holdWaitEnd => Sys2Proof.Machine.execHoldWaitEnd s
  | .frameEnd bytes => Sys2Proof.Machine.execFrameEnd bytes s
  | .earlyEndSilence => Sys2Proof.Machine.execEarlyEndSilence s
  | .framingViolation v => Sys2Proof.Machine.execFramingViolation v s
  | .readbackFailure => Sys2Proof.Machine.execReadbackFailure s
  | .objectionSlotEnd marked => Sys2Proof.Machine.execObjectionSlotEnd marked s
  | .lrstRisingEdge => Sys2Proof.Machine.execLrstRisingEdge s
  | .lrstReleased => Sys2Proof.Machine.execLrstReleased s
  | .ownLrstEnd => Sys2Proof.Machine.execOwnLrstEnd s
  | .fltRisingEdge => Sys2Proof.Machine.execFltRisingEdge s
  | .ownFltEnd => Sys2Proof.Machine.execOwnFltEnd s
  | .takeRunOpen => Sys2Proof.Machine.execTakeRunOpen s
  | .takeJoin => Sys2Proof.Machine.execTakeJoin s
  | .takeLoadSet => Sys2Proof.Machine.execTakeLoadSet s
  | .takeVerdict => Sys2Proof.Machine.execTakeVerdict s
  | .takeBypass => Sys2Proof.Machine.execTakeBypass s
  | .takeShed => Sys2Proof.Machine.execTakeShed s
  | .takePause => Sys2Proof.Machine.execTakePause s
  | .takeResume => Sys2Proof.Machine.execTakeResume s
  | .takeRunAbort => Sys2Proof.Machine.execTakeRunAbort s
  | .takeBenchFaultMarker => Sys2Proof.Machine.execTakeBenchFaultMarker s
  | .takeLinkResetMarker => Sys2Proof.Machine.execTakeLinkResetMarker s
  | .takePoolExtend => Sys2Proof.Machine.execTakePoolExtend s
  | .takeSealClaim => Sys2Proof.Machine.execTakeSealClaim s
  | .takeSealDone => Sys2Proof.Machine.execTakeSealDone s
  | .takeSealSpoil => Sys2Proof.Machine.execTakeSealSpoil s
  | .takeAnnounce => Sys2Proof.Machine.execTakeAnnounce s
  | .takeQuery => Sys2Proof.Machine.execTakeQuery s
  | .takeState => Sys2Proof.Machine.execTakeState s
  | .mirrorCheckNotice => Sys2Proof.Machine.execMirrorCheckNotice s
  | .stcRunOpened => Sys2Proof.Machine.execStcRunOpened s
  | .stcTableRefusal => Sys2Proof.Machine.execStcTableRefusal s
  | .joinOutcome x => Sys2Proof.Machine.execJoinOutcome x s
  | .ownJoinApplied => Sys2Proof.Machine.execOwnJoinApplied s
  | .ownJoinIgnored => Sys2Proof.Machine.execOwnJoinIgnored s
  | .stcLoadSet => Sys2Proof.Machine.execStcLoadSet s
  | .settleTimerExpiry x => Sys2Proof.Machine.execSettleTimerExpiry x s
  | .rdyRisingEdge => Sys2Proof.Machine.execRdyRisingEdge s
  | .rdyFallingEdge => Sys2Proof.Machine.execRdyFallingEdge s
  | .stcDisturbance => Sys2Proof.Machine.execStcDisturbance s
  | .accuracyWindowEnd x => Sys2Proof.Machine.execAccuracyWindowEnd x s
  | .creepStartWindowEnd x => Sys2Proof.Machine.execCreepStartWindowEnd x s
  | .adjustmentOutcome x => Sys2Proof.Machine.execAdjustmentOutcome x s
  | .stcMaskEnd x => Sys2Proof.Machine.execStcMaskEnd x s
  | .stcStepComplete => Sys2Proof.Machine.execStcStepComplete s
  | .localBypass x => Sys2Proof.Machine.execLocalBypass x s
  | .muteNotice => Sys2Proof.Machine.execMuteNotice s
  | .stcPaused => Sys2Proof.Machine.execStcPaused s
  | .stcResumed => Sys2Proof.Machine.execStcResumed s
  | .stcRunEnded => Sys2Proof.Machine.execStcRunEnded s
  | .refPulse => Sys2Proof.Machine.execRefPulse s
  | .meterPulse p => Sys2Proof.Machine.execMeterPulse p s
  | .gateTimeout x => Sys2Proof.Machine.execGateTimeout x s
  | .creepWindowTimer x => Sys2Proof.Machine.execCreepWindowTimer x s
  | .startWindowTimer x => Sys2Proof.Machine.execStartWindowTimer x s
  | .writeBurstEnd x => Sys2Proof.Machine.execWriteBurstEnd x s
  | .pulseMaskEnd x => Sys2Proof.Machine.execPulseMaskEnd x s
  | .incStartUpEnd => Sys2Proof.Machine.execIncStartUpEnd s
  | .idleProbeStart x => Sys2Proof.Machine.execIdleProbeStart x s
  | .detectEnd p microOhms => Sys2Proof.Machine.execDetectEnd p microOhms s
  | .probeBurstEnd x => Sys2Proof.Machine.execProbeBurstEnd x s
  | .incRunOpened => Sys2Proof.Machine.execIncRunOpened s
  | .insertionSenseAboveVopen p => Sys2Proof.Machine.execInsertionSenseAboveVopen p s
  | .insertionWindowEnd x => Sys2Proof.Machine.execInsertionWindowEnd x s
  | .presetOutcome x => Sys2Proof.Machine.execPresetOutcome x s
  | .supervisionTimerLimit x t => Sys2Proof.Machine.execSupervisionTimerLimit x t s
  | .supervisionTimerDecay x t => Sys2Proof.Machine.execSupervisionTimerDecay x t s
  | .supervisionTimerRise p level => Sys2Proof.Machine.execSupervisionTimerRise p level s
  | .coolDownEnd x => Sys2Proof.Machine.execCoolDownEnd x s
  | .incShed => Sys2Proof.Machine.execIncShed s
  | .incRunEnded => Sys2Proof.Machine.execIncRunEnded s
  | .verifyFailReport x => Sys2Proof.Machine.execVerifyFailReport x s
  | .presetRequest x => Sys2Proof.Machine.execPresetRequest x s
  | .presetBurstEnd x => Sys2Proof.Machine.execPresetBurstEnd x s
  | .correctionRequest x => Sys2Proof.Machine.execCorrectionRequest x s
  | .adjustBurstEnd x => Sys2Proof.Machine.execAdjustBurstEnd x s
  | .verificationRequest x => Sys2Proof.Machine.execVerificationRequest x s
  | .verifyBurstEnd x => Sys2Proof.Machine.execVerifyBurstEnd x s
  | .cruRunOpened => Sys2Proof.Machine.execCruRunOpened s
  | .burstRequest x k => Sys2Proof.Machine.execBurstRequest x k s
  | .burstWithdrawal x => Sys2Proof.Machine.execBurstWithdrawal x s
  | .orderSent x => Sys2Proof.Machine.execOrderSent x s
  | .replyReceived p bytes => Sys2Proof.Machine.execReplyReceived p bytes s
  | .replyTimerExpiry x => Sys2Proof.Machine.execReplyTimerExpiry x s
  | .lineRestEnd x => Sys2Proof.Machine.execLineRestEnd x s
  | .strayByte p b => Sys2Proof.Machine.execStrayByte p b s
  | .handOver => Sys2Proof.Machine.execHandOver s
  | .verificationOutcome x => Sys2Proof.Machine.execVerificationOutcome x s
  | .ownClaimNotice => Sys2Proof.Machine.execOwnClaimNotice s
  | .assignmentNotice => Sys2Proof.Machine.execAssignmentNotice s
  | .sealBurstEnd x => Sys2Proof.Machine.execSealBurstEnd x s
  | .sluRunEnded => Sys2Proof.Machine.execSluRunEnded s
  | .queryNotice => Sys2Proof.Machine.execQueryNotice s
  | .lampTimer => Sys2Proof.Machine.execLampTimer s
  | .fltReleased => Sys2Proof.Machine.execFltReleased s
  | .sluRunOpened => Sys2Proof.Machine.execSluRunOpened s
  | .gcuRunOpened => Sys2Proof.Machine.execGcuRunOpened s

end Sys2Proof.Machine
end

