-- ==== Sys2Proof/Machine/Time.lean ====
section
/-! DEFINITION. A millisecond in which no command comes: the timers of every block run on (log 2). An expiry is a command of
its own, so a running timer stops at 1 and waits for it. -/

namespace Sys2Proof.Machine

/-- One millisecond off a timer that runs. -/
def downCount (n : Nat) : Nat := max 1 (n - 1)

def Window.elapse : Window → Window
  | .none => .none
  | .accuracy p g t => .accuracy p g (downCount t)
  | .creep w t n => .creep w (downCount t) n
  | .start w t n => .start w (downCount t) n

/-- The decay sub-count runs while the sense stands at or below the level, and lies in 0..15 (R125). -/
def Supervision.elapse (v : Supervision) : Supervision :=
  if v.above then { v with above := false } else { v with decay := min (Config.decayMs - 1) (v.decay + 1) }

def ProbeCycle.elapse : ProbeCycle → ProbeCycle
  | .none => .none
  | .detect t => .detect (downCount t)
  | .classify b => .classify b

/-- The age of a probe result (R115). -/
def ProbeResult.older (r : ProbeResult) : ProbeResult := { r with age := r.age + 1 }

/-- A millisecond at one socket of the INC; supervision runs in INSERTED only (R125). -/
def IncSocket.elapse (i : IncSocket) : IncSocket :=
  { i with
    probe := i.probe.map ProbeResult.older
    overburden := if i.state = .inserted then i.overburden.elapse else i.overburden
    openCircuit := if i.state = .inserted then i.openCircuit.elapse else i.openCircuit
    coolDown := i.coolDown.tick
    cycle := i.cycle.elapse
    window := i.window.tick
    idleWait := i.idleWait.tick }

def ExchangeStage.elapse : ExchangeStage → ExchangeStage
  | .waitRest => .waitRest
  | .sending => .sending
  | .awaiting rx t => .awaiting rx (downCount t)

def Port.elapse (p : Port) : Port :=
  { p with running := p.running.map fun x => { x with stage := x.stage.elapse }, rest := p.rest.tick }

def GcuSocket.elapse (g : GcuSocket) : GcuSocket := { g with mask := g.mask.tick, window := g.window.elapse }

/-- R160: the mask's time runs from the burst's end, also while the GCU has yet to take the report of it. -/
def GcuMsg.elapse : GcuMsg → GcuMsg
  | .runOpened h => .runOpened h
  | .writeBurstEnd s left => .writeBurstEnd s (downCount left)

def RunCtx.elapse (c : RunCtx) : RunCtx := { c with settle := c.settle.tick }

/-- One millisecond at the whole station. -/
def Station.tick (st : Station) : Station :=
  { st with
    cfl := { st.cfl with retry := st.cfl.retry.tick }
    lkc := { st.lkc with
      ownLrst := st.lkc.ownLrst.tick, ownFlt := st.lkc.ownFlt.tick, holdWait := st.lkc.holdWait.tick }
    stc := { st.stc with ctx := st.stc.ctx.map RunCtx.elapse }
    gcu := { st.gcu with sockets := st.gcu.sockets.map GcuSocket.elapse, inbox := st.gcu.inbox.map GcuMsg.elapse }
    inc := { st.inc with sockets := st.inc.sockets.map IncSocket.elapse }
    mpc := { st.mpc with ports := st.mpc.ports.map Port.elapse } }

/-- What a step does when no command waits. Under power-on reset nothing runs (R179). -/
def idleStep (s : State) : Answer := s.run Station.tick

end Sys2Proof.Machine
end

