-- ==== Sys2Proof/Safety.lean ====
section
/-! DEFINITION. What the claims count as a sound state: the laws the manual lays down for whole runs, as predicates of the
state. -/

namespace Sys2Proof.Machine

/-! ### Speaking of states -/

/-- Power-on reset has ended, so events reach the blocks (R179). -/
abbrev State.Awake (s : State) : Prop := s.st.cfl.stage ≠ .inReset

/-- The state with its station changed and the queue of commands as it was. -/
def State.upd (s : State) (f : Station → Station) : State := { s with st := f s.st }

/-- A command answers a next state, and P holds of it. -/
def Answers (c : Instr) (s : State) (P : State → Prop) : Prop := ∃ t, exec c s = .next t ∧ P t

/-- An ordinary entry with run number 0, as ANNOUNCE and STATE carry it. -/
def newEntry0 (b : Body) : OutEntry := { run := 0, body := b, place := .queued, withdrawn := false, counted := false }

/-- How far a node stands behind the rotating ID in ascending cyclic order (R43): 0 for the node after it, 31 for itself. -/
def roundRank (rot n : Node) : Nat := (n.val + 31 - rot.val) % 32

/-- The head of the inbound queue is a frame, with `rest` behind it (R2). -/
abbrev State.Head (s : State) (f : Frame) (own : Bool) (rest : List Entry) : Prop := s.st.lkc.inbound = .frame f own :: rest

/-- A run frame that passes the run-number check (R15). -/
abbrev State.Current (s : State) (run : Byte) : Prop := run ≠ 0 ∧ run = s.st.bmr.runNo

/-- The bench position a frame names: its sender, and the socket in its body (R5). -/
def positionOf (f : Frame) (s : Socket) : Nat := f.sender.toNat * 4 + s.val

/-- Nothing of the run waits for sealing (R9). -/
def Mirror.settled (m : Mirror) : Bool := !m.has .done && !m.has .sealWait && !m.has .claimed

/-- The end test (R9) would end the run. -/
abbrev Mirror.EndDue (m : Mirror) : Prop := m.phase = .sealing ∧ m.settled = true

/-- The states RUN_ABORT and the bench-fault marker move OUT (R26, R27). -/
def working (x : EntryState) : Bool := x == .active || x == .done || x == .sealWait

/-- The states an ANNOUNCE closes (R32). -/
def inRunOrClaimed (x : EntryState) : Bool := working x || x == .claimed

/-- The command takes the head of the inbound queue and does nothing else (R2). -/
def State.Ignores (s : State) (c : Instr) (rest : List Entry) : Prop :=
  exec c s = .next (s.upd fun st => { st with lkc := { st.lkc with inbound := rest } })

/-- R26, R27: what an ended run leaves behind. -/
def State.EndedBy (s t : State) (rest : List Entry) (c : OutCause) (e : EndCause) : Prop :=
  t.st = { s.st with
    lkc := { s.st.lkc with inbound := rest }
    bmr := { s.st.bmr with
      phase := .ended, endCause := some e, step := none, stepComplete := false, paused := false, waiting := []
      roster := t.st.bmr.roster }
    notices := .all (some (.phase .ended (some e)))
    stc := { s.st.stc with inbox := s.st.stc.inbox ++ [.ended e] }
    inc := { s.st.inc with inbox := s.st.inc.inbox ++ [.ended e] }
    slu := { s.st.slu with inbox := s.st.slu.inbox ++ [.ended e] } } ∧
  ∀ i, (working (s.st.bmr.entry i).state = true →
      t.st.bmr.entry i = { s.st.bmr.entry i with state := .out, out := some c }) ∧
    (working (s.st.bmr.entry i).state = false → t.st.bmr.entry i = s.st.bmr.entry i)

/-- R9, R34: an entry taken outside STEPPING, with `m` the mirror it leaves: the end test follows, and in SEALING with
nothing waiting for sealing the run ends COMPLETE. -/
def State.EndTested (s t : State) (rest : List Entry) (m : Mirror) : Prop :=
  ((m.phase ≠ .sealing ∨ m.settled = false) →
    t.st = { s.st with lkc := { s.st.lkc with inbound := rest }, bmr := m }) ∧
  (m.phase = .sealing → m.settled = true →
    t.st = { s.st with
      lkc := { s.st.lkc with inbound := rest }
      bmr := { m with
        phase := .ended, endCause := some .complete, step := none, stepComplete := false, paused := false }
      notices := .all (some (.phase .ended (some .complete)))
      stc := { s.st.stc with inbox := s.st.stc.inbox ++ [.ended .complete] }
      inc := { s.st.inc with inbox := s.st.inc.inbox ++ [.ended .complete] }
      slu := { s.st.slu with inbox := s.st.slu.inbox ++ [.ended .complete] } })

/-- R31, R9: what closing a CLAIMED entry leaves behind. -/
def State.Closes (s t : State) (rest : List Entry) (i : Nat) (x : EntryState) (out : Option OutCause)
    (sealedBy spoiledBy : Nat) : Prop :=
  let e := { s.st.bmr.entry i with state := x, out := if out.isSome then out else (s.st.bmr.entry i).out }
  s.EndTested t rest { s.st.bmr with
    roster := s.st.bmr.roster.set i e, sealedCount := s.st.bmr.sealedCount + sealedBy
    spoiledCount := s.st.bmr.spoiledCount + spoiledBy }

/-- R7, R8, R34: an entry taken in STEPPING at step k, with `m` the mirror its own effect leaves and `first` the notices
that effect gives the STC. The step-completion test follows: with no ACTIVE entry the run ends NONE_LEFT; with every ACTIVE
entry passed the step completes, and after the last step sealing begins; else the step goes on. -/
def State.StepTested (s t : State) (rest : List Entry) (m : Mirror) (k : Nat) (first : List StcMsg) : Prop :=
  let anyActive := ∃ e ∈ m.roster, e.state = .active
  let allPassed := ∀ e ∈ m.roster, e.state = .active → e.lastVerdict = some k
  let after := fun (n : BlockNotices) (m1 : Mirror) (l : List StcMsg) => { s.st with
    lkc := { s.st.lkc with inbound := rest }, bmr := m1, notices := n
    stc := { s.st.stc with inbox := s.st.stc.inbox ++ first ++ l } }
  (¬ anyActive → t.st = { after (.all (some (.phase .ended (some .noneLeft))))
      { m with phase := .ended, endCause := some .noneLeft, step := none, stepComplete := false, paused := false }
      [.ended .noneLeft] with
    inc := { s.st.inc with inbox := s.st.inc.inbox ++ [.ended .noneLeft] }
    slu := { s.st.slu with inbox := s.st.slu.inbox ++ [.ended .noneLeft] } }) ∧
  (anyActive → (m.stepComplete = true ∨ ¬ allPassed) → t.st = after s.st.notices m []) ∧
  (anyActive → m.stepComplete = false → allPassed →
    (m.stepCount ≠ some (k + 1) →
      t.st = after s.st.notices { m with stepComplete := true } [.stepComplete k false]) ∧
    (m.stepCount = some (k + 1) →
      t.st = after (.all (some (.phase .sealing none)))
        { m with
          phase := .sealing, step := none, stepComplete := false
          roster := m.roster.map fun e => if e.state = .active then { e with state := .done } else e }
        [.stepComplete k true]))

/-- The command takes a run frame of its own kind (R15), the station's own JOIN and claims apart. -/
def takesRunFrame (c : Instr) (b : Body) : Bool :=
  match c, b with
  | .takeJoin, .join .. => true
  | .takeLoadSet, .loadSet .. => true
  | .takeVerdict, .verdict .. => true
  | .takeBypass, .bypass .. => true
  | .takeShed, .shed _ => true
  | .takePause, .pause => true
  | .takeResume, .resume => true
  | .takeRunAbort, .runAbort => true
  | .takePoolExtend, .poolExtend .. => true
  | .takeSealClaim, .sealClaim _ => true
  | .takeSealDone, .sealDone .. => true
  | .takeSealSpoil, .sealSpoil .. => true
  | _, _ => false

/-! ### What the formats fix (chapter 11) -/

/-- R196: each kind code with its one body length. -/
def kindLengths : List (Byte × Nat) :=
  [(0x01, 10), (0x02, 1), (0x03, 36), (0x10, 11), (0x11, 17), (0x12, 2), (0x13, 14), (0x14, 3), (0x15, 1), (0x16, 0),
    (0x17, 0), (0x18, 0), (0x19, 6), (0x1A, 1), (0x1B, 7), (0x1C, 6)]

/-- 00_scope.md 4.1: e is num / den, for a positive den, rounded to the nearest integer, half away from zero. -/
def RoundsTo (num den e : Int) : Prop :=
  2 * (num - e * den).natAbs < den ∨ (2 * (num - e * den).natAbs = den ∧ num.natAbs < (e * den).natAbs)

/-- R183, checks 2 to 4: the identification word, the length 1433, and the CRC-16 over every byte after the header (log 24). -/
abbrev ImageMarked (b : List Byte) : Prop := word16 b 0 = 0xA4C7
abbrev ImageLong (b : List Byte) : Prop := nat16 b 2 = 1433
abbrev ImageWhole (b : List Byte) : Prop := 1433 ≤ b.length ∧ crc16 ((b.drop 6).take 1427) = word16 b 4

/-- R183 check 5, R184, R199: every field of the station section at byte 6 lies within its values. -/
def StationInRange (b : List Byte) : Prop :=
  (∀ x : Socket, natAt b (7 + x.val) ≤ 3 ∧ natAt b (11 + x.val) ≤ 7) ∧ natAt b 15 ≤ 3 ∧ natAt b 16 ≤ 3 ∧ natAt b 17 ≤ 3

/-- R199: the station section holds what stands at byte 6 of the image. -/
def StationSection.ReadFrom (c : StationSection) (b : List Byte) : Prop :=
  (∀ x : Socket, c.enable.get x = (byteAt b 6).getLsbD x.val ∧ (c.remap.get x).val = natAt b (7 + x.val) ∧
    c.shedRank.get x = natAt b (11 + x.val)) ∧
  c.tOvb.val = natAt b 15 ∧ c.tOpen.val = natAt b 16 ∧ c.tIns.val = natAt b 17 ∧
  c.verifyWrites = (byteAt b 18).getLsbD 0

/-- R183 check 6, R185, R199: every field of a socket's profile, 51 bytes from byte 19 + 51 x on, lies within its values. -/
def ProfileInRange (b : List Byte) (x : Socket) : Prop :=
  let o := 19 + 51 * x.val
  1 ≤ nat32 b (o + 2) ∧ nat32 b (o + 2) ≤ 1000000 ∧ nat32 b (o + 6) ≤ nat32 b (o + 10) ∧
  ∀ c : Channel,
    let k := o + 15 + 9 * c.val
    natAt b k ≤ 3 ∧ int16 b (k + 3) ≤ int16 b (k + 5) ∧ 1 ≤ nat16 b (k + 7) ∧ nat16 b (k + 7) ≤ 10000

/-- R199: the code of a channel mode. -/
def ChannelMode.stored : ChannelMode → Nat
  | .off => 0
  | .fixed => 1
  | .auto => 2
  | .once => 3

/-- R199: the profile holds what stands at byte 19 + 51 x. -/
def Profile.ReadFrom (p : Profile) (b : List Byte) (x : Socket) : Prop :=
  let o := 19 + 51 * x.val
  p.cls = word16 b o ∧ p.km = nat32 b (o + 2) ∧ p.rlo = nat32 b (o + 6) ∧ p.rhi = nat32 b (o + 10) ∧
  p.confirm = (byteAt b (o + 14)).getLsbD 0 ∧
  ∀ c : Channel,
    let k := o + 15 + 9 * c.val
    let r := p.channels.get c
    r.mode.stored = natAt b k ∧ r.preset = int16 b (k + 1) ∧ r.min = int16 b (k + 3) ∧ r.max = int16 b (k + 5) ∧
      r.sensitivity = nat16 b (k + 7)

/-- R199: the code of a step kind. -/
def StepKind.stored : StepKind → Nat
  | .accuracy => 0
  | .creep => 1
  | .start => 2

/-- R186: the step record at byte o meets the conditions of its kind; `ps` has the profiles of the enabled sockets. -/
def StepInRange (ps : Quad (Option Profile)) (b : List Byte) (o : Nat) : Prop :=
  natAt b o ≤ 2 ∧ 100 ≤ nat16 b (o + 19) ∧ nat16 b (o + 19) ≤ 60000 ∧
  (natAt b o = 0 →
    1 ≤ nat16 b (o + 2) ∧ nat16 b (o + 2) ≤ 1000 ∧ 1 ≤ natAt b (o + 4) ∧ natAt b (o + 4) ≤ 8 ∧
    -999999 ≤ int32 b (o + 5) ∧ int32 b (o + 5) ≤ 0 ∧ 0 ≤ int32 b (o + 9) ∧ int32 b (o + 9) ≤ 999999 ∧
    nat32 b (o + 13) ≤ 1999998 ∧ 1 ≤ natAt b (o + 17) ∧ natAt b (o + 17) ≤ 4 ∧
    1 ≤ nat16 b (o + 21) ∧ nat16 b (o + 21) ≤ 600 ∧
    (natAt b (o + 18) = 255 ∨ ∃ c : Channel, natAt b (o + 18) = c.val ∧
      ∀ x p, ps.get x = some p → (p.channels.get c).mode ≠ .off)) ∧
  (natAt b o ≠ 0 → 1 ≤ nat16 b (o + 23) ∧ nat16 b (o + 23) ≤ 3600)

/-- R199: the step record holds what stands at byte o. -/
def StepRecord.ReadFrom (r : StepRecord) (b : List Byte) (o : Nat) : Prop :=
  r.kind.stored = natAt b o ∧ r.loadPoint = byteAt b (o + 1) ∧ r.n = nat16 b (o + 2) ∧ r.s = natAt b (o + 4) ∧
  r.lower = int32 b (o + 5) ∧ r.upper = int32 b (o + 9) ∧ r.spread = nat32 b (o + 13) ∧ r.attempts = natAt b (o + 17) ∧
  r.adjust = byteAt b (o + 18) ∧ r.settle = nat16 b (o + 19) ∧ r.gateTimeout = nat16 b (o + 21) ∧ r.w = nat16 b (o + 23)

/-- R186: the slot at byte o is usable. -/
def SlotInRange (ps : Quad (Option Profile)) (b : List Byte) (o : Nat) : Prop :=
  1 ≤ nat32 b o ∧ nat32 b o ≤ 2000000000 ∧ 1 ≤ natAt b (o + 4) ∧ natAt b (o + 4) ≤ 24 ∧
  ∀ k, k < natAt b (o + 4) → StepInRange ps b (o + 5 + 25 * k)

/-- R186, R187, R199: the run table holds what stands at byte o, with its fingerprint. -/
def RunTable.ReadFrom (t : RunTable) (b : List Byte) (o : Nat) : Prop :=
  t.kr = nat32 b o ∧ t.steps.length = natAt b (o + 4) ∧
  (∀ (k : Nat) (r : StepRecord), t.steps[k]? = some r → r.ReadFrom b (o + 5 + 25 * k)) ∧
  t.fingerprint = crc32 ((b.drop o).take (5 + 25 * natAt b (o + 4)))

/-! ### What a block has been told (R34; log 4) -/

/-- The inbox holds `m`, and before it only messages `m` may overtake; `rest` is the inbox without it. -/
def Heard {α : Type} (passes : α → α → Bool) (inbox : List α) (m : α) (rest : List α) : Prop :=
  ∃ pre post, inbox = pre ++ m :: post ∧ rest = pre ++ post ∧ ∀ x ∈ pre, passes m x = true

/-- Notices keep their order; a report overtakes other blocks' and sockets' reports, and nothing overtakes run-opened. -/
def StcMsg.overtakes (m x : StcMsg) : Bool :=
  if m.isNotice then !m.isRunOpened && !x.isNotice
  else !x.isRunOpened && x != m && (m.line.isNone || x.line != m.line)

def IncMsg.overtakes (m x : IncMsg) : Bool :=
  if m.isNotice then !m.isRunOpened && !x.isNotice
  else !x.isRunOpened &&
    match m, x with
    | .probeEnd a _, .probeEnd b _ => a != b
    | .presetOutcome a _ _, .presetOutcome b _ _ => a != b
    | .verifyFail a, .verifyFail b => a != b
    | _, _ => true

def CruMsg.overtakes (m x : CruMsg) : Bool :=
  !m.isRunOpened && !x.isRunOpened &&
    match m, x with
    | .presetRequest a _, .presetRequest b _ => a != b
    | .correction a _ _, .correction b _ _ => a != b
    | .verifyRequest a, .verifyRequest b => a != b
    | .burstEnd a _, .burstEnd b _ => a != b
    | _, _ => true

def SluMsg.overtakes (m x : SluMsg) : Bool :=
  if m.isNotice then !m.isRunOpened && !x.isNotice
  else !x.isRunOpened &&
    match m, x with
    | .handOver _, .handOver _ => false
    | .verification a _ _, .verification b _ _ => a != b
    | .burstEnd a _, .burstEnd b _ => a != b
    | _, _ => true

def GcuMsg.overtakes (m x : GcuMsg) : Bool :=
  match m, x with
  | .runOpened _, .runOpened _ => false
  | .writeBurstEnd a _, .writeBurstEnd b _ => a != b
  | _, _ => true

def MpcMsg.overtakes (m x : MpcMsg) : Bool :=
  match m, x with
  | .request a b, .request c d => a != c || b.kind != d.kind
  | .withdraw a n, .request c b => a != c || n != b.id
  | .withdraw a _, .withdraw c _ => a != c
  | _, _ => true

namespace Station

/-- What is left of a block's inbox. -/
def stcLeft (st : Station) (r : List StcMsg) : Station := { st with stc := { st.stc with inbox := r } }
def incLeft (st : Station) (r : List IncMsg) : Station := { st with inc := { st.inc with inbox := r } }
def cruLeft (st : Station) (r : List CruMsg) : Station := { st with cru := { st.cru with inbox := r } }
def sluLeft (st : Station) (r : List SluMsg) : Station := { st with slu := { st.slu with inbox := r } }
def gcuLeft (st : Station) (r : List GcuMsg) : Station := { st with gcu := { st.gcu with inbox := r } }
def mpcLeft (st : Station) (r : List MpcMsg) : Station := { st with mpc := { st.mpc with inbox := r } }

end Station

/-! ### What the rules say of one socket -/

/-- R105: a window that is voided, with its samples. -/
def GcuSocket.voided (g : GcuSocket) : GcuSocket :=
  if g.window = .none then g else { g with window := .none, samples := [] }

/-- R85: the bench regards the position as gone: its entry is not ACTIVE, unless a PASS of the run's last step made it DONE,
which is R84's to hand over (log 14). -/
def Station.left (st : Station) (x : Socket) : Bool :=
  (st.ownEntry x).state != .active &&
    !((st.ownEntry x).state == .done && (st.ctx x).passed &&
      (st.ctx x).verdicts.getLast?.any fun r => st.bmr.stepCount == some (r.step + 1))

/-- R114, R115, the checks in order: the ident outcome of a PROBE burst that ended. `m` is the last IDENT reply received with
OK. -/
def Profile.Identifies (p : Profile) (r : BurstReport) (o : IdentOutcome) (m : Option MeterId) : Prop :=
  let judged := fun (id : MeterId) (lk : Bool) =>
    let lacks := id.cls ≠ p.cls ∨ ∃ c : Channel, (p.channels.get c).mode ≠ .off ∧ id.presence.get c = false
    m = some id ∧ ((lk = true ∧ o = .locked) ∨ (lk = false ∧ lacks ∧ o = .classMismatch) ∨ (lk = false ∧ ¬ lacks ∧ o = .ok))
  (r.result = .locked ∧ o = .locked ∧ m = (identReplies r.records).getLast?.map Prod.fst) ∨
  (r.result ≠ .locked ∧ r.result ≠ .ok ∧ o = .fail ∧ m = (identReplies r.records).getLast?.map Prod.fst) ∨
  (∃ a cls serial pres lk, r.result = .ok ∧ r.records = [a] ∧ a.reply = some (.ident cls serial pres lk) ∧
    judged { cls := cls, serial := serial, presence := pres } lk) ∨
  ∃ a b cls1 serial1 pres1 lk1 cls2 serial2 pres2 lk2, r.result = .ok ∧ r.records = [a, b] ∧
    a.reply = some (.ident cls1 serial1 pres1 lk1) ∧ b.reply = some (.ident cls2 serial2 pres2 lk2) ∧
    ((serial1 ≠ serial2 ∧ o = .mismatch ∧ m = some { cls := cls2, serial := serial2, presence := pres2 }) ∨
      (serial1 = serial2 ∧ judged { cls := cls2, serial := serial2, presence := pres2 } lk2))

/-- R71, R75, R76, R78, R88: a socket settles for `ms`, or is held. -/
def RunCtx.settles (ms : Nat) (c : RunCtx) : RunCtx :=
  { c with run := .settling, settle := some ms, settlePeriod := some ms, waitMask := false, disturbed := false }

def RunCtx.holds (c : RunCtx) : RunCtx :=
  { c with run := .held, settle := none, settlePeriod := none, waitMask := false, disturbed := false }

/-- The socket leaves the run with a local out cause (R62). -/
def RunCtx.leaves (o : OutCause) (c : RunCtx) : RunCtx :=
  { c with run := .out, outCause := some o, settle := none, settlePeriod := none, waitMask := false }

/-- R76: what a disturbance does to a socket by its run state. -/
def RunCtx.disturbedBy (ms : Nat) (c : RunCtx) : RunCtx :=
  match c.run with
  | .settling => { c with settle := c.settlePeriod, waitMask := false }
  | .ready => c.settles ms
  | .measuring => c.settles ms
  | .adjusting => { c with disturbed := true }
  | .masked => { c with disturbed := true }
  | _ => c

/-- R88: what a pause does to a socket by its run state. -/
def RunCtx.pausedBy (c : RunCtx) : RunCtx :=
  match c.run with
  | .settling => c.holds
  | .ready => c.holds
  | .measuring => c.holds
  | _ => c

/-- R110: a close request. -/
def IncSocket.shut (i : IncSocket) : IncSocket :=
  if i.state = .inserting ∨ i.state = .inserted then
    { i with state := .bypassed, window := none, join := .none, overburden := .zero, openCircuit := .zero }
  else i

/-- R124: the join ends LATE. -/
def IncSocket.late (i : IncSocket) : IncSocket :=
  { i.shut with join := .none, joinFault := if i.joinFault = .none then .late else i.joinFault }

/-- R70, R119, R124: a socket of the INC whose join the STC ends late. A join of which the INC has yet to take the run-opened
notice (more such notices wait for it than for the STC; log 48) has no outcome, so its fault is LATE whatever the last run's
was. -/
def Station.endedLate (st : Station) (x : Socket) : IncSocket :=
  if st.stc.inbox.countP StcMsg.isRunOpened < st.inc.inbox.countP IncMsg.isRunOpened then
    { (st.incSocket x).shut with join := .none, joinFault := .late }
  else (st.incSocket x).late

/-- R70: the INC's inbox q once the STC has ended the joins of some sockets late. The run-opened notice of the STC's run, if the
INC has yet to take it (as many are behind it as the STC has yet to take itself), keeps them; nothing else changes (log 48). -/
def Station.LateEndsKept (st : Station) (ended : Socket → Bool) (q : List IncMsg) : Prop :=
  (∀ pre h late post, st.inc.inbox = pre ++ .runOpened h late :: post →
    post.countP IncMsg.isRunOpened = st.stc.inbox.countP StcMsg.isRunOpened →
    q = pre ++ .runOpened h (.tabulate fun x => late.get x || ended x) :: post) ∧
  (st.inc.inbox.countP IncMsg.isRunOpened ≤ st.stc.inbox.countP StcMsg.isRunOpened → q = st.inc.inbox)

/-- R126, R129: a fault closes the shunt, clears both timers and starts the cool-down. -/
def IncSocket.cooled (i : IncSocket) : IncSocket :=
  { i with state := .cooling, coolDown := some 1000, window := none, join := .none, overburden := .zero,
           openCircuit := .zero }

/-- R122: step 3 of the join opens the shunt for the insertion window. -/
def IncSocket.inserts (ms : Nat) (m : MeterId) (i : IncSocket) : IncSocket :=
  { i with
    state := .inserting, window := some ms, join := .inserting, joinClass := m.cls, joinPresence := m.presence }

/-- R113: a probe cycle begins. -/
def IncSocket.probes (i : IncSocket) : IncSocket := { i with state := .probing, cycle := .detect 50, idleWait := none }

/-- R115, R116: a probe cycle has ended. -/
def IncSocket.probed (i : IncSocket) (r : ProbeResult) : IncSocket :=
  { i with state := .bypassed, probe := some r, cycle := .none, idleWait := some 500,
           changes := match i.probe with
             | some o => if o.detect = r.detect ∨ 255 ≤ i.changes then i.changes else i.changes + 1
             | none => i.changes }

/-- R83: the socket's verdict is final: its record, and the VERDICT frame. -/
def Station.judged (st : Station) (x : Socket) (v : Verdict) (mean : Int) (spread att adj : Nat) : Station :=
  let r : VerdictRecord :=
    { step := st.stc.step, loadPoint := st.curStep.loadPoint, verdict := v, mean := mean, spread := spread,
      attempts := att, adjustments := adj }
  let body := Body.verdict (BitVec.ofNat 8 x.val) (BitVec.ofNat 8 st.stc.step) v.code v.causeCode
    (BitVec.ofInt 32 mean) (BitVec.ofNat 32 spread) (BitVec.ofNat 8 att) (BitVec.ofNat 8 adj)
  let e : OutEntry := { run := st.bmr.runNo, body := body, place := .queued, withdrawn := false, counted := false }
  let c := { st.ctx x with run := .stepDone, verdicts := (st.ctx x).verdicts ++ [r] }
  { st with
    stc := { st.stc with ctx := st.stc.ctx.set x c }
    lkc := { st.lkc with outbound := st.lkc.outbound ++ [e] } }

/-- R74, R75: the socket measures, its window open and its sample list empty. -/
def Station.measures (st : Station) (x : Socket) : Station :=
  let g := { st.gcuSocket x with window := windowFor st.curStep (st.profileKm x) st.runKr, samples := [] }
  { st with
    stc := { st.stc with ctx := st.stc.ctx.set x { st.ctx x with run := .measuring } }
    gcu := { st.gcu with sockets := st.gcu.sockets.set x g } }

/-- R55: a JOIN was offered to the queue of `l` and left that of `m`: it stands last, or in the place of a JOIN that is not on
the wire, or waits as the deferred JOIN. -/
def Lkc.TakesJoin (l m : Lkc) (j : OutEntry) : Prop :=
  m = { l with outbound := m.outbound, deferredJoin := m.deferredJoin } ∧
  ((∀ e ∈ l.outbound, Station.inAnnouncePlace e.body = false) →
    m.outbound = l.outbound ++ [j] ∧ m.deferredJoin = l.deferredJoin) ∧
  ∀ (pre post : List OutEntry) (e : OutEntry), l.outbound = pre ++ e :: post →
    (∀ d ∈ pre ++ post, Station.inAnnouncePlace d.body = false) → Station.inAnnouncePlace e.body = true →
    (Station.isJoin e.body = true → e.place ≠ .onWire →
      m.outbound = pre ++ { j with place := e.place } :: post ∧ m.deferredJoin = l.deferredJoin) ∧
    ((Station.isJoin e.body = false ∨ e.place = .onWire) → m.outbound = l.outbound ∧ m.deferredJoin = some j)

/-- R65, R67: the station's JOIN for the sockets that joined, with their classes, and the fault codes of the others. -/
def Station.joinFor (st : Station) (joined : Socket → Bool) (classes : Quad W16) : OutEntry :=
  { run := st.bmr.runNo
    body := .join (maskByte (.tabulate joined)) st.bmr.fingerprint (.tabulate fun y =>
      { cls := if joined y then classes.get y else 0
        fault := if st.enabled y = false then 1 else if joined y then 0 else (st.incSocket y).joinFault.code })
    place := .queued, withdrawn := false, counted := false }

/-- R138, R143: what one exchange of a PRESET burst makes of the record of channel `c`. -/
def ChannelRec.presetBy (c : Channel) (k : ChannelRec) (a : ExchangeRecord) : ChannelRec :=
  match a.order with
  | .writeCh d v =>
    if d ≠ c then k
    else if a.reply = some .writeCh then { k with current := some v, mark := true }
    else { k with current := none, mark := false }
  | .readCh d =>
    match a.reply with
    | some (.readCh v) => if d = c then { k with current := some v, mark := false } else k
    | _ => k
  | _ => k

/-- A burst is asked of a socket's port: it gets the next burst number and its request waits (R155, R157; log 20). -/
def Station.burstAsked (st : Station) (x : Socket) (k : BurstKind) (first : Order) (rest : List Order) : Mpc :=
  let b : Burst := { id := st.mpc.nextBurst, kind := k, first := first, rest := rest }
  { st.mpc with nextBurst := st.mpc.nextBurst + 1, inbox := st.mpc.inbox ++ [.request x b] }

/-- R169, R170: the written fields of a seal record built now for a number. -/
def Station.recordFields (st : Station) (x : Socket) (n : Nat) : SealFields :=
  let value := fun c => match st.channelValue x c with
    | some v => BitVec.ofInt 16 v
    | none => 0x8000
  { number := BitVec.ofNat 32 n, run := st.bmr.runNo, fingerprint := st.bmr.fingerprint,
    node := BitVec.ofNat 8 st.cfl.node.val, socket := BitVec.ofNat 8 x.val,
    digest := crc16 ((st.ctx x).verdicts.flatMap VerdictRecord.bytes), channels := .tabulate value }

/-- R167, R169, R171: a socket of the SLU that has just taken its number. -/
def Station.sealBegun (st : Station) (x : Socket) (n : Nat) : SluSocket :=
  { held := some n, record := some { fields := st.recordFields x n, status := .pending },
    request := .seal st.mpc.nextBurst }

/-- A burst that has just become the running one (R155, R157). -/
def Burst.begun (b : Burst) (stage : ExchangeStage) : Running :=
  { id := b.id, kind := b.kind, order := b.first, rest := b.rest, records := [], stage := stage }

/-- The queue q with a BYPASS placed now: behind its urgent entries and ahead of its ordinary ones (R54, R128). -/
def Station.bypassPlaced (st : Station) (q : List OutEntry) (x : Socket) (c : OutCause) : List OutEntry :=
  q.takeWhile (fun e => Station.urgentBody e.body) ++
    { run := st.bmr.runNo, body := .bypass (BitVec.ofNat 8 x.val) c.code st.bypassStep, place := .queued,
      withdrawn := false, counted := false } ::
    q.dropWhile (fun e => Station.urgentBody e.body)

/-- R45, R56, R58, R60: what stood at a place is queued again, what was withdrawn there is gone, and every other entry
stays. -/
def Lkc.backFrom (l : Lkc) (p : Place) : List OutEntry :=
  (l.outbound.filter fun e => !(e.place == p && e.withdrawn)).map fun e =>
    if e.place = p then { e with place := .queued } else e

/-- R45, R50: the candidate won its round and is on the wire. The count of consecutive objections stays when the winner is the
entry it counts, and starts at 0 for any other; a later count can go on only from this one (log 12). -/
def Lkc.Wins (l m : Lkc) : Prop :=
  (m.outbound = l.outbound.map fun x =>
    if x.place = .candidate then { x with place := .onWire } else { x with counted := false }) ∧
  ((∃ x ∈ l.outbound, x.place = .candidate ∧ x.counted = true) → m.objections = l.objections) ∧
  ((∀ x ∈ l.outbound, x.place = .candidate → x.counted = false) → m.objections = 0)

/-- R48, R49, R56: the entry that was on the wire is queued again and counted, or gone when it was withdrawn; every other
entry stays. -/
def Lkc.countedBack (l : Lkc) : List OutEntry :=
  (l.outbound.filter fun e => !(e.place == .onWire && e.withdrawn)).map fun e =>
    if e.place = .onWire then { e with place := .queued, counted := true } else e

/-- R56: the VERDICTs of some sockets are withdrawn, each as for one. -/
def verdictsWithdrawn (of : Socket → Bool) (q : List OutEntry) : List OutEntry :=
  let hit := fun e : OutEntry => ([0, 1, 2, 3] : List Socket).any fun x => of x && Station.isVerdictOf x e.body
  (q.filter fun e => !(hit e && e.place == .queued)).map fun e => if hit e then { e with withdrawn := true } else e

/-- R56: the socket's VERDICT is withdrawn: at once when queued, else its withdrawal waits. -/
def Station.verdictWithdrawn (st : Station) (x : Socket) : List OutEntry :=
  (st.lkc.outbound.filter fun e => !(Station.isVerdictOf x e.body && e.place == .queued)).map fun e =>
    if Station.isVerdictOf x e.body then { e with withdrawn := true } else e

/-! ### The seal pool and its accounts (R10 to R13) -/

namespace Mirror

/-- The number of entries in a state. -/
def countOf (m : Mirror) (x : EntryState) : Nat := m.roster.countP fun e => e.state == x

/-- The waiting list names positions in SEAL_WAIT, each once, and is empty while the pool holds a number (R13). -/
abbrev WaitingSound (m : Mirror) : Prop :=
  m.waiting.Nodup ∧ (∀ i ∈ m.waiting, (m.entry i).state = .sealWait) ∧ (m.pool ≠ [] → m.waiting = [])

/-- R12: every number issued is held by a CLAIMED entry, or counted sealed or spoiled. -/
def Balanced (m : Mirror) : Prop := m.issued = m.countOf .claimed + m.sealedCount + m.spoiledCount

/-- At most four blocks, one above the other, none exhausted, each of 1..65535 numbers from 1 to the high-water
mark, which is a 32-bit number (R10, R12). -/
def PoolSound (m : Mirror) : Prop :=
  m.pool.length ≤ 4 ∧ m.highWater ≤ 4294967295 ∧ (m.pool.Pairwise fun a b => a.first + a.count ≤ b.first) ∧
    ∀ b ∈ m.pool, 1 ≤ b.first ∧ b.count ≤ 65535 ∧ b.next < b.count ∧ b.first + b.count ≤ m.highWater + 1

/-- A number an entry carries lies below every number the pool still holds (R11). -/
def NumbersSound (m : Mirror) : Prop :=
  ∀ e ∈ m.roster, ∀ n, e.number = some n → n ≤ m.highWater ∧ ∀ b ∈ m.pool, n < b.first + b.next

/-- No two entries carry one number (R11). -/
def NumbersApart (m : Mirror) : Prop :=
  ∀ (i j n : Nat), i < m.roster.length → j < m.roster.length → (m.entry i).number = some n → (m.entry j).number = some n →
    i = j

/-- The roster, the pool and the counts agree. -/
def Sound (m : Mirror) : Prop := m.WaitingSound ∧ m.Balanced ∧ m.PoolSound ∧ m.NumbersSound ∧ m.NumbersApart

end Mirror

/-! ### Queues -/

/-- R52: the inbound queue holds at most 8 frames, and a frame that the slot finds clean has room. -/
def Lkc.InboundSound (l : Lkc) : Prop :=
  Station.frameFill l.inbound ≤ Config.inboundRoom ∧
    (l.medium = .objection → l.mark = false → l.followed ≠ none → l.link ≠ .listen →
      Station.frameFill l.inbound < Config.inboundRoom)

/-- R54, R55: every urgent entry stands ahead of every ordinary one; at most one entry holds the announce place and at most
one is a STATE; what waits as the deferred JOIN is a JOIN. -/
def Lkc.OutboundSound (l : Lkc) : Prop :=
  (l.outbound.Pairwise fun a b => Station.urgentBody b.body = true → Station.urgentBody a.body = true) ∧
    (l.outbound.filter fun e => Station.inAnnouncePlace e.body).length ≤ 1 ∧
    (l.outbound.filter fun e => Station.isState e.body).length ≤ 1 ∧
    ∀ e, l.deferredJoin = some e → Station.isJoin e.body = true

/-- R157: a burst waits only behind one that runs. -/
def Port.Sound (p : Port) : Prop := p.running = none → p.waiting = none

/-- The SEAL bursts that sockets have asked for carry different numbers, each already given (R171; log 20). -/
def Station.SealBurstsApart (st : Station) : Prop :=
  ∀ (x : Socket) (b : Nat), (st.sluSocket x).request = .seal b →
    b < st.mpc.nextBurst ∧ ∀ y : Socket, y ≠ x → (st.sluSocket y).request ≠ .seal b

/-! ### Insertion -/

/-- R109, R113, R122, R125, R129: a socket's timers and cycle are those of its insertion state. -/
def IncSocket.Sound (i : IncSocket) : Prop :=
  (i.state ≠ .inserted → i.overburden = .zero ∧ i.openCircuit = .zero) ∧ (i.cycle ≠ .none ↔ i.state = .probing) ∧
    (i.window.isSome ↔ i.state = .inserting) ∧ (i.coolDown.isSome ↔ i.state = .cooling)

/-! ### Counters -/

/-- The counters of the station stay within their ranges (R50, R116, R126, R182, R193). -/
def Station.CountersSound (st : Station) : Prop :=
  st.lkc.objections ≤ Config.objectionLimit ∧ st.rpu.objectionTotal ≤ Config.counterMax ∧
    st.rpu.ignored ≤ Config.counterMax ∧
    (∀ s : Socket, (st.inc.sockets.get s).changes ≤ Config.smallCountMax ∧
      (st.inc.sockets.get s).overburdenFaults ≤ Config.smallCountMax ∧
      (st.inc.sockets.get s).openFaults ≤ Config.smallCountMax)

end Sys2Proof.Machine
end

