-- ==== Sys2Proof/Certificates/Slice0/Obligations.lean ====
section
/-! DEFINITION. The statements for the provers. `Answers c s P`: the command c in the state s answers a next state with P. -/

open Sys2Proof Sys2Proof.Machine

/-! ### The queue of commands -/

/-- A step runs the command in front on the state with the rest of the queue; with no command it lets a millisecond pass
(the block's own convention, log 2). -/
def Obligations.StepRunsFrontCommand : Prop :=
  (∀ (c : Instr) (s : State), step { s with pending := c :: s.pending } = exec c s) ∧
    ∀ s : State, s.pending = [] → s.Awake → step s = .next (s.upd Station.tick)

/-- No command stops the machine, and none touches the queue of commands. That a command whose event cannot happen in the
state it meets is answered next as well is the model's choice (log 1, DESIGN CHOICE). -/
def Obligations.CommandsAnswerAndKeepQueue : Prop :=
  ∀ (c : Instr) (s : State), Answers c s fun t => t.pending = s.pending

/-- Under power-on reset only its end, or another power-on reset, does anything. -/
def Obligations.NothingActsUnderPowerOnReset : Prop :=
  ∀ (c : Instr) (s : State), s.st.cfl.stage = .inReset → c ≠ .powerOnReset →
    (∀ straps r l f, c ≠ .powerOnResetEnd straps r l f) → exec c s = .next s

/-! ### Start-up (chapter 9) -/

/-- Power-on reset gives every block the values its chapter states, drives no line, closes every shunt, darkens every lamp,
holds the MTX lines at the stop level and releases SCL and SDA; State.reset is that state. -/
def Obligations.PowerOnResetGivesPowerOnValues : Prop :=
  ∀ s : State, Answers .powerOnReset s fun t =>
    t.pending = s.pending ∧ t.st = State.reset.st ∧
    t.st.lkc.link = .listen ∧ t.st.lkc.medium = .unknown ∧ t.st.lkc.rotating = 31 ∧ t.st.lkc.inbound = [] ∧
    t.st.lkc.outbound = [] ∧ t.st.lkc.deferredJoin = none ∧ t.st.lkc.objections = 0 ∧ t.st.lkc.ownLrst = none ∧
    t.st.lkc.ownFlt = none ∧
    t.st.bmr.phase = .closed ∧ t.st.bmr.runNo = 0 ∧ t.st.bmr.slot = 0 ∧ t.st.bmr.fingerprint = 0 ∧
    t.st.bmr.endCause = none ∧ t.st.bmr.step = none ∧ t.st.bmr.stepCount = none ∧ t.st.bmr.stepComplete = false ∧
    t.st.bmr.paused = false ∧ t.st.bmr.roster = List.replicate 128 .absent ∧ t.st.bmr.pool = [] ∧
    t.st.bmr.highWater = 0 ∧ t.st.bmr.issued = 0 ∧ t.st.bmr.sealedCount = 0 ∧ t.st.bmr.spoiledCount = 0 ∧
    t.st.bmr.waiting = [] ∧
    t.st.gcu.refCount = 0 ∧ t.st.rpu.objectionTotal = 0 ∧ t.st.rpu.ignored = 0 ∧ t.st.rpu.ownFault = .none ∧
    t.st.rpu.queryPending = false ∧ t.st.rpu.muted = false ∧ t.st.rdyPull = false ∧ t.st.drivesRoundStart = false ∧
    (∀ x : Socket, (t.st.ctx x).run = .idle ∧ (t.st.ctx x).attempt = 1 ∧ (t.st.ctx x).verdicts = [] ∧
      (t.st.gcuSocket x).mask = none ∧ (t.st.gcuSocket x).window = .none ∧ (t.st.gcuSocket x).samples = [] ∧
      (t.st.incSocket x).state = .bypassed ∧ (t.st.incSocket x).probe = none ∧ (t.st.incSocket x).changes = 0 ∧
      (t.st.incSocket x).joinFault = .none ∧ (t.st.incSocket x).deferred = none ∧ (t.st.incSocket x).coolDown = none ∧
      (t.st.port x).running = none ∧ (t.st.port x).waiting = none ∧ (t.st.port x).rest = none ∧
      (t.st.sluSocket x).held = none ∧ (t.st.sluSocket x).record = none) ∧
    (∀ p : Position, t.st.shuntDriver p = false ∧ t.st.lampOutput p = false ∧ t.st.meterTx p = none) ∧
    ∀ bytes, t.st.storeLines bytes = none

/-- The end of power-on reset samples the straps, starts READING and takes the levels of the wired lines, RDY's among them,
as they stand. A failed attempt that may be repeated is followed, 10 ms later, by another; a clock held low is no answer. Each
attempt is one transfer from address 0x53, offset 0, its last byte unacknowledged; between attempts SCL and SDA are released.
The model's choices: the parts of the transfer as an output (log 29, DESIGN CHOICE), and how many bytes it reads: as many as the
header declares, the header's six among them (log 42, DESIGN CHOICE), and six where it declares fewer (log 36, DEDUCED). -/
def Obligations.StrapsAreSampledAndStoreIsRead : Prop :=
  (∀ (s : State) (straps : BitVec 5) (rdy lrst flt : Bool), s.st.cfl.stage = .inReset →
    Answers (.powerOnResetEnd straps rdy lrst flt) s fun t =>
      t.st.cfl.node.val = straps.toNat ∧ t.st.lkc.link = s.st.lkc.link ∧
      t = s.upd fun st => { st with
        cfl := { st.cfl with stage := .reading, node := t.st.cfl.node }
        gcu := { st.gcu with rdy := rdy }
        lkc := { st.lkc with lrst := lrst, flt := flt } }) ∧
  (∀ (s : State) (answer : Option (List Byte)) (status : ConfigStatus), s.st.cfl.stage = .reading →
    s.st.cfl.attempts + 1 < 3 → judgeImage answer = .fails status true →
      exec (.readAttemptEnd answer) s = .next (s.upd fun st => { st with
        cfl := { st.cfl with stage := .retryWait, attempts := st.cfl.attempts + 1, retry := some 10 } })) ∧
  (∀ s : State, s.st.cfl.stage = .reading → s.st.cfl.attempts + 1 < 3 →
    exec .storeClockHeldTimeout s = .next (s.upd fun st => { st with
      cfl := { st.cfl with stage := .retryWait, attempts := st.cfl.attempts + 1, retry := some 10 } })) ∧
  (∀ s : State, s.st.cfl.stage = .retryWait →
    exec .readRetryTimer s = .next (s.upd fun st => { st with cfl := { st.cfl with stage := .reading, retry := none } })) ∧
  ∀ (st : Station) (b0 b1 b2 b3 : Byte) (bytes : List Byte),
    (st.cfl.stage = .reading → 6 < b2.toNat * 256 + b3.toNat →
      st.storeLines (b0 :: b1 :: b2 :: b3 :: bytes) = some
        ([.start, .address 0x53 false, .write 0x00, .write 0x00, .start, .address 0x53 true] ++
          List.replicate (b2.toNat * 256 + b3.toNat - 1) (.read true) ++ [.read false, .stop])) ∧
    (st.cfl.stage = .reading → b2.toNat * 256 + b3.toNat ≤ 6 →
      st.storeLines (b0 :: b1 :: b2 :: b3 :: bytes) = some
        ([.start, .address 0x53 false, .write 0x00, .write 0x00, .start, .address 0x53 true] ++
          List.replicate 5 (.read true) ++ [.read false, .stop])) ∧
    (st.cfl.stage ≠ .reading → st.storeLines (b0 :: b1 :: b2 :: b3 :: bytes) = none)

/-- An attempt that is the last and failed, a clock held low among them (no answer), leaves a station with no socket, the
identity remap and an ANNOUNCE that says so. The checks that fail an image, in order: no answer, the identification word, the
length, the CRC-16, a field of the station section, a field of an enabled socket's profile; the first four repeat the attempt.
The model's choices: that an image of fewer than 1433 bytes fails the check of its CRC-16 (log 24, DESIGN CHOICE), and bits 4..7
of the ANNOUNCE's mask (log 45, DESIGN CHOICE). -/
def Obligations.FailedImageLeavesNoSocket : Prop :=
  (∀ s : State, s.st.cfl.stage = .reading →
    let leaves := fun c (status : ConfigStatus) => Answers c s fun t =>
      t.st = { s.st with
        cfl := t.st.cfl
        cru := { s.st.cru with sockets := t.st.cru.sockets }
        lkc := { s.st.lkc with outbound := s.st.lkc.outbound ++ [newEntry0 (.announce status.code 0 0 0)] }
        inc := { s.st.inc with inbox := s.st.inc.inbox ++ [.startUpEnd] } } ∧
      t.st.cfl.stage = .running ∧ t.st.cfl.status = some status ∧ t.st.cfl.node = s.st.cfl.node ∧
      (∀ x : Socket, t.st.enabled x = false ∧ t.st.remap.get x = x ∧ t.st.profile x = none ∧
        (t.st.cruSocket x).table = none) ∧
      t.st.cfl.slotA = none ∧ t.st.cfl.slotB = none ∧ ∀ bytes, t.st.storeLines bytes = none
    (∀ answer status again, judgeImage answer = .fails status again → (again = false ∨ 3 ≤ s.st.cfl.attempts + 1) →
      leaves (.readAttemptEnd answer) status) ∧
    (3 ≤ s.st.cfl.attempts + 1 → leaves .storeClockHeldTimeout .noStore)) ∧
  judgeImage none = .fails .noStore true ∧
  ∀ b : List Byte,
    (¬ ImageMarked b → judgeImage (some b) = .fails .badImage true) ∧
    (ImageMarked b → ¬ ImageLong b → judgeImage (some b) = .fails .badImage true) ∧
    (ImageMarked b → ImageLong b → ¬ ImageWhole b → judgeImage (some b) = .fails .badImage true) ∧
    (ImageMarked b → ImageLong b → ImageWhole b → ¬ StationInRange b → judgeImage (some b) = .fails .badImage false) ∧
    (ImageMarked b → ImageLong b → ImageWhole b → StationInRange b →
      (∃ x : Socket, (byteAt b 6).getLsbD x.val = true ∧ ¬ ProfileInRange b x) →
      judgeImage (some b) = .fails .badImage false)

/-- A usable image is held and handed on, its time selections and verify-writes option among it; a duplicate remap gives way
to the identity and is reported. The ANNOUNCE carries the configuration status. An image that passes the checks is usable,
with the fields of its station section and of the enabled sockets' profiles as stored; a slot is usable by the conditions of
R186 alone, with its step records and its fingerprint. The model's choices: that a usable image has 1433 bytes at least (log
24, DESIGN CHOICE), bits 4..7 of the ANNOUNCE's mask (log 45, DESIGN CHOICE), and that an adjust channel code which names no
channel makes a slot unusable with no enabled socket too (log 54, DEDUCED). -/
def Obligations.UsableImageIsHeld : Prop :=
  (∀ b : List Byte, ImageMarked b → ImageLong b → ImageWhole b → StationInRange b →
    (∀ x : Socket, (byteAt b 6).getLsbD x.val = true → ProfileInRange b x) →
    ∃ sec ps, judgeImage (some b) = .passes sec ps ∧ sec.ReadFrom b ∧
      ∀ x : Socket, ((byteAt b 6).getLsbD x.val = true → ∃ p, ps.get x = some p ∧ p.ReadFrom b x) ∧
        ((byteAt b 6).getLsbD x.val = false → ps.get x = none)) ∧
  (∀ (ps : Quad (Option Profile)) (b : List Byte) (o : Nat),
    (SlotInRange ps b o → ∃ tb, readSlot ps b o = some tb ∧ tb.ReadFrom b o) ∧
    (¬ SlotInRange ps b o → readSlot ps b o = none)) ∧
  ∀ (s : State) (bytes : List Byte) (sec : StationSection) (ps : Quad (Option Profile)), s.st.cfl.stage = .reading →
    judgeImage (some bytes) = .passes sec ps →
    Answers (.readAttemptEnd (some bytes)) s fun t =>
      t.st = { s.st with
        cfl := t.st.cfl
        cru := { s.st.cru with sockets := t.st.cru.sockets }
        lkc := { s.st.lkc with outbound := t.st.lkc.outbound }
        inc := { s.st.inc with inbox := s.st.inc.inbox ++ [.startUpEnd] } } ∧
      t.st.cfl.stage = .running ∧ t.st.cfl.profiles = ps ∧ t.st.cfl.node = s.st.cfl.node ∧
      t.st.cfl.slotA = readSlot ps bytes 223 ∧ t.st.cfl.slotB = readSlot ps bytes 828 ∧
      (sec.remap.toList.Nodup → t.st.remap = sec.remap) ∧
      (¬ sec.remap.toList.Nodup → ∀ x : Socket, t.st.remap.get x = x) ∧
      t.st.cfl.status = some (.conditions (decide (¬ sec.remap.toList.Nodup)) (readSlot ps bytes 223).isNone
        (readSlot ps bytes 828).isNone) ∧
      (∀ x : Socket, t.st.enabled x = sec.enable.get x ∧ t.st.shedRank x = sec.shedRank.get x ∧
        (t.st.cruSocket x).table = freshTable (ps.get x)) ∧
      t.st.supLimit .overburden = (match sec.tOvb with | 0 => 60 | 1 => 120 | 2 => 240 | 3 => 480) ∧
      t.st.supLimit .openCircuit = (match sec.tOpen with | 0 => 5 | 1 => 10 | 2 => 20 | 3 => 40) ∧
      t.st.insertionMs = (match sec.tIns with | 0 => 30 | 1 => 60 | 2 => 120 | 3 => 240) ∧
      t.st.verifyWrites = sec.verifyWrites ∧ (∀ answer, t.st.storeLines answer = none) ∧
      ∃ status a b, t.st.lkc.outbound = s.st.lkc.outbound ++ [newEntry0 (.announce status a b (maskByte sec.enable))] ∧
        t.st.cfl.status.map ConfigStatus.code = some status ∧
        (∀ tb, readSlot ps bytes 223 = some tb → a = tb.fingerprint) ∧ (readSlot ps bytes 223 = none → a = 0) ∧
        (∀ tb, readSlot ps bytes 828 = some tb → b = tb.fingerprint) ∧ (readSlot ps bytes 828 = none → b = 0)

/-! ### The bench link (chapter 2) -/

/-- A station in LISTEN becomes ACTIVE at the end of an idle interval, and at the end of an objection slot, whose frame it
does not receive; a clean slot of an ordinary frame sets its rotating ID. That a frame followed from an unknown medium is
ordinary unless it is a BYPASS is DEDUCED (log 39); that one whose bytes are no frame is not, and leaves the rotating ID, is the
model's choice (log 47, DESIGN CHOICE). -/
def Obligations.ListenEndsAtIdleOrSlot : Prop :=
  (∀ s : State, s.st.cfl.stage = .running → s.st.lkc.link = .listen → s.st.lkc.lrst = false →
    exec .idleInterval s = .next (s.upd fun st => { st with lkc := { st.lkc with
      link := .active, medium := .free, ordinary := false, followed := none, mark := false, stopped := false } })) ∧
  (∀ (s : State) (marked : Bool), s.Awake → s.st.lkc.link = .listen → s.st.lkc.medium = .objection →
    Answers (.objectionSlotEnd marked) s fun t =>
      t.st = { s.st with lkc := { s.st.lkc with
        link := .active, medium := .free, ordinary := false, followed := none, mark := false, stopped := false,
        rotating := t.st.lkc.rotating } } ∧
      ((marked = true ∨ s.st.lkc.ordinary = false) → t.st.lkc.rotating = s.st.lkc.rotating) ∧
      ∀ (f : Frame) (n : Node), marked = false → s.st.lkc.mark = false → s.st.lkc.ordinary = true →
        s.st.lkc.followed = some f → f.sender = BitVec.ofNat 8 n.val → t.st.lkc.rotating = n) ∧
  ∀ (s : State) (bytes : List Byte), s.st.cfl.stage = .running → s.st.lkc.link = .listen → s.st.lkc.medium = .unknown →
    s.st.driving = false →
    exec (.frameEnd bytes) s = .next (s.upd fun st => { st with lkc := { st.lkc with
      medium := .objection, followed := readFrame bytes, mark := false
      ordinary := match readFrame bytes with
        | some f => (match f.body with | .bypass .. => false | _ => true)
        | none => false } })

/-- A station drives the round-start mark when it is ACTIVE, the medium FREE and its queue not empty, and so never in LISTEN or
MUTE. At a round-start mark, whoever drives it, an ACTIVE station takes the head of its queue as its candidate; any other
changes no entry. The candidate's node slot is marked in its window, and the hold slot with 5 frames or more. A round whose winner does not begin, and a hold wait, leave the medium FREE, with nothing counted. That an entry withdrawn while it
waited for its frame start is removed there is DEDUCED (log 13). -/
def Obligations.RoundsBeginAndLeaveTheMediumFree : Prop :=
  (∀ (s : State) (e : OutEntry) (es : List OutEntry), s.Awake → s.st.lkc.medium = .free → s.st.lkc.link = .active →
    s.st.lkc.outbound = e :: es →
    exec .roundStartMark s = .next (s.upd fun st => { st with lkc := { st.lkc with
      medium := .round, outbound := { e with place := .candidate } :: es } })) ∧
  (∀ s : State, s.Awake → s.st.lkc.medium = .free → (s.st.lkc.link ≠ .active ∨ s.st.lkc.outbound = []) →
    exec .roundStartMark s = .next (s.upd fun st => { st with lkc := { st.lkc with medium := .round } })) ∧
  (∀ st : Station,
    (st.drivesRoundStart = true ↔ st.lkc.link = .active ∧ st.lkc.medium = .free ∧ st.lkc.outbound ≠ []) ∧
    (∀ (urgent : Bool) (n : Node), slotMarked (st.ownMarks urgent) n = true ↔
      n = st.cfl.node ∧ ∃ e, st.entryAt .candidate = some e ∧ Station.urgentBody e.body = urgent) ∧
    (st.marksHold = true ↔ st.lkc.link ≠ .listen ∧ 5 ≤ Station.frameFill st.lkc.inbound)) ∧
  (∀ s : State, s.Awake → s.st.lkc.medium = .frame →
    exec .frameStartLimit s = .next (s.upd fun st => { st with lkc := { st.lkc with
      medium := .free, ordinary := false, followed := none, mark := false, stopped := false,
      outbound := st.lkc.backFrom .onWire } })) ∧
  ∀ s : State, s.Awake → s.st.lkc.medium = .holdWait →
    exec .holdWaitEnd s = .next (s.upd fun st => { st with lkc := { st.lkc with medium := .free, holdWait := none } })

/-- The round is decided from the marks seen, those this station drove among them: the lowest urgent node, else the hold,
else the first ordinary node after the rotating ID, else nobody. -/
def Obligations.RoundIsDecidedFromMarks : Prop :=
  ∀ (s : State) (u o : W32) (hold : Bool), s.Awake → s.st.lkc.medium = .round →
    let U := u ||| s.st.ownMarks true
    let O := o ||| s.st.ownMarks false
    let H := hold || s.st.marksHold
    (Answers (.holdSlotEnd u o hold) s fun t => t.st = { s.st with lkc := { s.st.lkc with
      medium := t.st.lkc.medium, ordinary := t.st.lkc.ordinary, rotating := t.st.lkc.rotating,
      holdWait := t.st.lkc.holdWait, followed := t.st.lkc.followed, mark := t.st.lkc.mark,
      stopped := t.st.lkc.stopped, objections := t.st.lkc.objections, outbound := t.st.lkc.outbound } }) ∧
    (∀ w : Node, slotMarked U w → (∀ v : Node, v < w → slotMarked U v = false) →
      Answers (.holdSlotEnd u o hold) s fun t =>
        t.st.lkc.medium = .frame ∧ t.st.lkc.rotating = s.st.lkc.rotating ∧ t.st.lkc.ordinary = false) ∧
    ((∀ v, slotMarked U v = false) → H = true →
      Answers (.holdSlotEnd u o hold) s fun t =>
        t.st.lkc.medium = .holdWait ∧ t.st.lkc.holdWait = some 2 ∧ t.st.lkc.rotating = s.st.lkc.rotating) ∧
    ((∀ v, slotMarked U v = false) → H = false →
      ∀ w : Node, slotMarked O w →
        (∀ v : Node, slotMarked O v → roundRank s.st.lkc.rotating w ≤ roundRank s.st.lkc.rotating v) →
        Answers (.holdSlotEnd u o hold) s fun t =>
          t.st.lkc.medium = .frame ∧ t.st.lkc.rotating = w ∧ t.st.lkc.ordinary = true) ∧
    ((∀ v, slotMarked U v = false) → H = false → (∀ v, slotMarked O v = false) →
      Answers (.holdSlotEnd u o hold) s fun t =>
        t.st.lkc.medium = .free ∧ t.st.lkc.rotating = s.st.lkc.rotating)

/-- The winner's candidate goes on the wire; a candidate that has not won, beaten in the urgent or in the ordinary window or
in a held round, is in the queue again, unless it was withdrawn, and every other entry stays. The consecutive-objection count
goes on when the winning entry is the one it counts, and begins at 0 for another. That the count passes to the new entry when
that entry wins its round is the model's reading (log 12, DEDUCED). -/
def Obligations.WinnerPutsCandidateOnWire : Prop :=
  (∀ (s : State) (u o : W32) (hold : Bool) (e : OutEntry), s.Awake → s.st.lkc.medium = .round →
    s.st.entryAt .candidate = some e → Station.urgentBody e.body = true →
    (∀ v : Node, slotMarked u v → s.st.cfl.node ≤ v) →
    Answers (.holdSlotEnd u o hold) s fun t =>
      t.st.lkc.medium = .frame ∧ { e with place := .onWire } ∈ t.st.lkc.outbound ∧ s.st.lkc.Wins t.st.lkc) ∧
  (∀ (s : State) (o : W32) (e : OutEntry), s.Awake → s.st.lkc.medium = .round →
    s.st.entryAt .candidate = some e → Station.urgentBody e.body = false → s.st.marksHold = false →
    (∀ v : Node, slotMarked o v → roundRank s.st.lkc.rotating s.st.cfl.node ≤ roundRank s.st.lkc.rotating v) →
    Answers (.holdSlotEnd 0 o false) s fun t =>
      t.st.lkc.medium = .frame ∧ { e with place := .onWire } ∈ t.st.lkc.outbound ∧
        t.st.lkc.rotating = s.st.cfl.node ∧ s.st.lkc.Wins t.st.lkc) ∧
  ∀ (s : State) (u o : W32) (hold : Bool) (e : OutEntry), s.Awake → s.st.lkc.medium = .round →
    s.st.entryAt .candidate = some e →
    let loses := Answers (.holdSlotEnd u o hold) s fun t =>
      t.st.lkc.outbound = s.st.lkc.backFrom .candidate ∧ t.st.lkc.objections = s.st.lkc.objections ∧
      (e.withdrawn = false → { e with place := .queued } ∈ t.st.lkc.outbound) ∧
        ∀ x ∈ t.st.lkc.outbound, x.place ≠ .candidate
    let ordinary := Station.urgentBody e.body = false ∧ slotMarked u s.st.cfl.node = false
    (∀ w, slotMarked u w → w < s.st.cfl.node → loses) ∧
    (∀ w, slotMarked u w → ordinary → loses) ∧
    (ordinary → (hold = true ∨ s.st.marksHold = true) → loses) ∧
    ∀ w, slotMarked o w → ordinary → roundRank s.st.lkc.rotating w < roundRank s.st.lkc.rotating s.st.cfl.node → loses

/-- A followed frame is judged by the checks of R46 in order, the veto of R19 last, the station's own among them: a declared
length above 40, a frame that ends short, a check code that differs, an unknown kind or a length that is not its kind's each
make it a bad frame, which is marked; one that passes these checks is read with the fields its bytes carry. That the bytes of the frame a station drives are those of its own entry, whatever the
command carries, is DEDUCED (log 10). -/
def Obligations.FrameIsJudgedInOrder : Prop :=
  (∀ (s : State) (bytes : List Byte), s.Awake → s.st.lkc.link ≠ .listen → s.st.lkc.medium = .frame →
    s.st.driving = false →
    exec (.frameEnd bytes) s = .next (s.upd fun st => { st with lkc := { st.lkc with
      medium := .objection, followed := readFrame bytes,
      mark := match readFrame bytes with
        | none => true
        | some f => decide (8 ≤ Station.frameFill st.lkc.inbound) || match f.body with
          | .runOpen slot fp _ _ =>
            st.synced && (!st.lkc.inbound.isEmpty || (st.runOpenRefusal f.run slot fp).isSome)
          | _ => false } })) ∧
  (∀ (s : State) (bytes : List Byte), s.Awake → s.st.lkc.link ≠ .listen → s.st.lkc.medium = .frame →
    s.st.driving = false →
    let bad := exec (.frameEnd bytes) s = .next (s.upd fun st => { st with lkc := { st.lkc with
      medium := .objection, followed := none, mark := true } })
    (bytes.length < 6 → bad) ∧
    ∀ (sender kind run len : Byte) (rest : List Byte), bytes = sender :: kind :: run :: len :: rest →
      (40 < len.toNat → bad) ∧
      (rest.length < len.toNat + 2 → bad) ∧
      ∀ (body : List Byte) (c1 c2 : Byte), rest = body ++ [c1, c2] → body.length = len.toNat → len.toNat ≤ 40 →
        let agrees := crc16 (sender :: kind :: run :: len :: body) = c1 ++ c2
        (¬ agrees → bad) ∧
        (agrees → (kind, len.toNat) ∉ kindLengths → bad) ∧
        (agrees → (kind, len.toNat) ∈ kindLengths → ∃ f, readFrame bytes = some f ∧
          f.sender = sender ∧ f.run = run ∧ f.body.kind = kind ∧ f.body.bytes = body)) ∧
  (∀ (s : State) (bytes : List Byte) (e : OutEntry), s.Awake → s.st.lkc.link ≠ .listen → s.st.lkc.medium = .frame →
    s.st.entryAt .onWire = some e → s.st.lkc.stopped = false →
    exec (.frameEnd bytes) s = .next (s.upd fun st => { st with lkc := { st.lkc with
      medium := .objection
      followed := some { sender := BitVec.ofNat 8 st.cfl.node.val, run := e.run, body := e.body }
      mark := decide (8 ≤ Station.frameFill st.lkc.inbound) || match e.body with
        | .runOpen slot fp _ _ => st.synced && (!st.lkc.inbound.isEmpty || (st.runOpenRefusal e.run slot fp).isSome)
        | _ => false } })) ∧
  ∀ s : State, s.Awake → s.st.lkc.link ≠ .listen → s.st.lkc.medium = .frame →
    exec .earlyEndSilence s = .next (s.upd fun st => { st with lkc := { st.lkc with
      medium := .objection, followed := none, mark := true } })

/-- A framing violation makes an ACTIVE station assert LRST for 1 ms; its own drives end by their own timers, and an end of
FLT's that finds the assertion restarted does nothing; a mirror-check notice makes it assert FLT for 10 ms. That a timer which
has run out stands at 1 until its end comes is the model's choice (log 2, DESIGN CHOICE). -/
def Obligations.OwnDrivesFollowTheirCauses : Prop :=
  (∀ s : State, s.Awake → s.st.lkc.link = .active →
    (s.st.lkc.medium = .free ∨ s.st.lkc.medium = .round ∨ s.st.lkc.medium = .holdWait ∨ s.st.lkc.medium = .objection) →
    exec (.framingViolation .strayStart) s = .next (s.upd fun st => { st with lkc := { st.lkc with ownLrst := some 1 } })) ∧
  (∀ s : State, s.Awake → s.st.lkc.link = .active → s.st.lkc.medium = .objection →
    exec (.framingViolation .overrun) s = .next (s.upd fun st => { st with lkc := { st.lkc with ownLrst := some 1 } })) ∧
  (∀ s : State, s.Awake →
    exec .ownLrstEnd s = .next (s.upd fun st => { st with lkc := { st.lkc with ownLrst := none } }) ∧
    (s.st.lkc.ownFlt = none → exec .ownFltEnd s = .next s) ∧
    ∀ n, s.st.lkc.ownFlt = some n →
      (n ≤ 1 → exec .ownFltEnd s = .next (s.upd fun st => { st with lkc := { st.lkc with ownFlt := none } })) ∧
        (1 < n → exec .ownFltEnd s = .next s)) ∧
  ∀ (s : State) (n : Nat), s.Awake → s.st.lkc.link ≠ .listen → s.st.lkc.mirrorChecks = n + 1 →
    exec .mirrorCheckNotice s = .next (s.upd fun st => { st with
      lkc := { st.lkc with mirrorChecks := n, ownFlt := some 10 }
      rpu := { st.rpu with ownFault := .mirrorCheck } })

/-- A clean frame of another node enters the tail of the inbound queue; after an ordinary round its sender becomes the
rotating ID. One that carries this station's own number, and that it did not send, mutes it: FLT for 10 ms, the mute
notice to the STC and to the RPU. That the RPU's notice is recorded and has no further effect is DEDUCED (log 44). -/
def Obligations.CleanForeignFrameIsQueued : Prop :=
  ∀ (s : State) (f : Frame) (n : Node), s.Awake → s.st.lkc.medium = .objection → s.st.lkc.mark = false →
    s.st.lkc.followed = some f → s.st.entryAt .onWire = none → f.sender = BitVec.ofNat 8 n.val →
    let queued := fun l : Lkc => { l with
      inbound := l.inbound ++ [.frame f false], rotating := if l.ordinary then n else l.rotating,
      medium := .free, ordinary := false, followed := none, mark := false, stopped := false }
    (s.st.lkc.link ≠ .listen → n ≠ s.st.cfl.node →
      exec (.objectionSlotEnd false) s = .next (s.upd fun st => { st with lkc := queued st.lkc })) ∧
    (s.st.lkc.link = .active → n = s.st.cfl.node →
      exec (.objectionSlotEnd false) s = .next (s.upd fun st => { st with
        lkc := { queued st.lkc with link := .mute, ownFlt := some 10 }
        rpu := { st.rpu with ownFault := .duplicate, muted := true }
        stc := { st.stc with inbox := st.stc.inbox ++ [.mute] } })) ∧
    (s.st.lkc.link = .mute → n = s.st.cfl.node →
      exec (.objectionSlotEnd false) s = .next (s.upd fun st => { st with
        lkc := { queued st.lkc with ownFlt := some 10 }, rpu := { st.rpu with ownFault := .duplicate } }))

/-- The sender of a clean frame receives it, removes the entry and sets its objection count to 0; a deferred JOIN takes the
announce place that came free, and a pending query gets a fresh STATE behind one published. -/
def Obligations.CleanOwnFrameIsPublished : Prop :=
  ∀ (s : State) (f : Frame) (e : OutEntry), s.Awake → s.st.lkc.link = .active → s.st.lkc.medium = .objection →
    s.st.lkc.mark = false → s.st.lkc.stopped = false → s.st.lkc.followed = some f → s.st.entryAt .onWire = some e →
    Answers (.objectionSlotEnd false) s fun t =>
      t.st = { s.st with
        lkc := { s.st.lkc with
          inbound := s.st.lkc.inbound ++ [.frame f true], objections := 0, medium := .free, ordinary := false,
          followed := none, stopped := false, rotating := t.st.lkc.rotating, outbound := t.st.lkc.outbound,
          deferredJoin := t.st.lkc.deferredJoin }
        rpu := { s.st.rpu with queryPending := t.st.rpu.queryPending } } ∧
      (Station.isState e.body = false → t.st.rpu.queryPending = s.st.rpu.queryPending) ∧
      (Station.isState e.body = true → t.st.rpu.queryPending = false) ∧
      (Station.inAnnouncePlace e.body = false → t.st.lkc.deferredJoin = s.st.lkc.deferredJoin) ∧
      (s.st.lkc.ordinary = false → t.st.lkc.rotating = s.st.lkc.rotating) ∧
      (∀ n : Node, s.st.lkc.ordinary = true → f.sender = BitVec.ofNat 8 n.val → t.st.lkc.rotating = n) ∧
      let left := s.st.lkc.outbound.filter fun x => x.place != .onWire
      (Station.inAnnouncePlace e.body = false → Station.isState e.body = false →
        t.st.lkc.outbound = left ∧ t.st.lkc.deferredJoin = s.st.lkc.deferredJoin) ∧
      (∀ d, Station.inAnnouncePlace e.body = true → s.st.lkc.deferredJoin = some d →
        Station.urgentBody d.body = false → t.st.lkc.outbound = left ++ [d] ∧ t.st.lkc.deferredJoin = none) ∧
      (Station.inAnnouncePlace e.body = true → s.st.lkc.deferredJoin = none →
        t.st.lkc.outbound = left ∧ t.st.lkc.deferredJoin = none) ∧
      (Station.isState e.body = true →
        (s.st.rpu.queryPending = false → t.st.lkc.outbound = left) ∧
        (s.st.rpu.queryPending = true → t.st.lkc.outbound = left ++ [newEntry0 (.state s.st.stateReport)]))

/-- An objected frame is void, and enters no queue, the sender's or another's. At its sender the entry stays (unless withdrawn)
and is counted, and the other entries stay; the third objection in a row mutes the sender. Readback stops a frame, and the
attempt counts as objected whatever the slot shows: another node's frame that goes on and passes clean is received, and mutes
the station when it carries its number. That the stopped station's own mark leaves that slot clean is DEDUCED (log 7), and that
the RPU's mute notice is recorded and has no further effect (log 44). -/
def Obligations.ObjectedFrameStaysAndCounts : Prop :=
  (∀ (s : State) (e : OutEntry) (marked : Bool), s.Awake → s.st.lkc.link = .active → s.st.lkc.medium = .objection →
    s.st.entryAt .onWire = some e → (marked = true ∨ s.st.lkc.mark = true) →
    s.st.lkc.objections ≤ 3 →
    Answers (.objectionSlotEnd marked) s fun t =>
      t.st = { s.st with
        lkc := { s.st.lkc with
          medium := .free, ordinary := false, followed := none, mark := false, stopped := false
          objections := min 3 (s.st.lkc.objections + 1), outbound := t.st.lkc.outbound, link := t.st.lkc.link
          ownFlt := t.st.lkc.ownFlt }
        rpu := { s.st.rpu with
          objectionTotal := if s.st.rpu.objectionTotal < 65535 then s.st.rpu.objectionTotal + 1
            else s.st.rpu.objectionTotal
          ownFault := t.st.rpu.ownFault, muted := t.st.rpu.muted, queryPending := t.st.rpu.queryPending }
        stc := { s.st.stc with inbox := t.st.stc.inbox } } ∧
        t.st.lkc.outbound = s.st.lkc.countedBack ∧
        (e.withdrawn = false → { e with place := .queued, counted := true } ∈ t.st.lkc.outbound) ∧
        (∀ x ∈ t.st.lkc.outbound, x.place ≠ .onWire) ∧
        (Station.isState e.body = false → t.st.rpu.queryPending = s.st.rpu.queryPending) ∧
        (Station.isState e.body = true → t.st.rpu.queryPending = false) ∧
        (s.st.lkc.objections + 1 < 3 → t.st.lkc.link = .active ∧ t.st.lkc.ownFlt = s.st.lkc.ownFlt ∧
          t.st.rpu.ownFault = s.st.rpu.ownFault ∧ t.st.rpu.muted = s.st.rpu.muted ∧ t.st.stc = s.st.stc) ∧
        (3 ≤ s.st.lkc.objections + 1 → t.st.lkc.link = .mute ∧ t.st.lkc.ownFlt = some 10 ∧
          t.st.rpu.ownFault = .objectionLimit ∧ t.st.rpu.muted = true ∧ t.st.stc.inbox = s.st.stc.inbox ++ [.mute])) ∧
  (∀ (s : State) (e : OutEntry) (f : Frame) (n : Node), s.Awake → s.st.lkc.link = .active → s.st.lkc.medium = .objection →
    s.st.entryAt .onWire = some e → s.st.lkc.stopped = true → s.st.lkc.mark = false → s.st.lkc.followed = some f →
    f.sender = BitVec.ofNat 8 n.val → s.st.lkc.objections ≤ 3 →
    Answers (.objectionSlotEnd false) s fun t =>
      t.st = { s.st with
        lkc := { s.st.lkc with
          inbound := s.st.lkc.inbound ++ [.frame f false], medium := .free, ordinary := false, followed := none,
          stopped := false, rotating := if s.st.lkc.ordinary then n else s.st.lkc.rotating
          objections := min 3 (s.st.lkc.objections + 1), outbound := s.st.lkc.countedBack, link := t.st.lkc.link
          ownFlt := t.st.lkc.ownFlt }
        rpu := { s.st.rpu with
          objectionTotal := if s.st.rpu.objectionTotal < 65535 then s.st.rpu.objectionTotal + 1
            else s.st.rpu.objectionTotal
          ownFault := t.st.rpu.ownFault, muted := t.st.rpu.muted
          queryPending := if Station.isState e.body then false else s.st.rpu.queryPending }
        stc := { s.st.stc with inbox := t.st.stc.inbox } } ∧
      (n = s.st.cfl.node → t.st.lkc.link = .mute ∧ t.st.lkc.ownFlt = some 10 ∧ t.st.rpu.ownFault = .duplicate ∧
        t.st.rpu.muted = true ∧
        t.st.stc.inbox = s.st.stc.inbox ++ [.mute]) ∧
      (n ≠ s.st.cfl.node → s.st.lkc.objections + 1 < 3 → t.st.lkc.link = .active ∧ t.st.lkc.ownFlt = s.st.lkc.ownFlt ∧
        t.st.rpu.ownFault = s.st.rpu.ownFault ∧ t.st.rpu.muted = s.st.rpu.muted ∧ t.st.stc = s.st.stc) ∧
      (n ≠ s.st.cfl.node → 3 ≤ s.st.lkc.objections + 1 → t.st.lkc.link = .mute ∧ t.st.lkc.ownFlt = some 10 ∧
        t.st.rpu.ownFault = .objectionLimit ∧ t.st.rpu.muted = true ∧ t.st.stc.inbox = s.st.stc.inbox ++ [.mute])) ∧
  (∀ (s : State) (marked : Bool), s.Awake → s.st.lkc.link ≠ .listen → s.st.lkc.medium = .objection →
    s.st.entryAt .onWire = none → (marked = true ∨ s.st.lkc.mark = true) →
    exec (.objectionSlotEnd marked) s = .next (s.upd fun st => { st with lkc := { st.lkc with
      medium := .free, ordinary := false, followed := none, mark := false, stopped := false } })) ∧
  ∀ s : State, s.Awake → s.st.lkc.medium = .frame → s.st.driving = true →
    exec .readbackFailure s = .next (s.upd fun st => { st with lkc := { st.lkc with stopped := true } })

/-- A rising edge of LRST voids what is in flight, abandons the round, and restores the link's starting values: every entry is
queued, in its order, and one whose withdrawal waited for the round or the frame is gone; the marker goes to the tail of the
inbound queue. During start-up the edge is its level only. The release frees the medium. That a candidate withdrawn in the round
the edge abandons is removed there is the model's reading (log 13, DEDUCED). -/
def Obligations.LinkResetEdgeClearsTheLink : Prop :=
  (∀ s : State, s.st.cfl.stage = .running → s.st.lkc.lrst = false →
    Answers .lrstRisingEdge s fun t =>
      t.st = { s.st with
        lkc := { s.st.lkc with
          lrst := true, medium := .reset, rotating := 31, objections := 0, ordinary := false, followed := none,
          mark := false, stopped := false, holdWait := none, inbound := t.st.lkc.inbound
          outbound := (s.st.lkc.outbound.filter fun x => x.place == .queued || !x.withdrawn).map fun x =>
            { x with place := .queued } }
        rpu := { s.st.rpu with queryPending := t.st.rpu.queryPending } } ∧
        (s.st.onWireIs Station.isState = false → t.st.rpu.queryPending = s.st.rpu.queryPending) ∧
        (s.st.onWireIs Station.isState = true → t.st.rpu.queryPending = false) ∧
        (s.st.lkc.link = .listen → t.st.lkc.inbound = s.st.lkc.inbound) ∧
        (s.st.lkc.link ≠ .listen → Entry.linkReset ∈ tailMarkers s.st.lkc.inbound →
          t.st.lkc.inbound = s.st.lkc.inbound) ∧
        (s.st.lkc.link ≠ .listen → Entry.linkReset ∉ tailMarkers s.st.lkc.inbound →
          t.st.lkc.inbound = s.st.lkc.inbound ++ [.linkReset])) ∧
  (∀ s : State, s.Awake → s.st.cfl.stage ≠ .running → s.st.lkc.lrst = false →
    exec .lrstRisingEdge s = .next (s.upd fun st => { st with lkc := { st.lkc with lrst := true } })) ∧
  ∀ s : State, s.Awake → s.st.lkc.lrst = true → s.st.lkc.ownLrst = none →
    (s.st.lkc.medium = .reset → exec .lrstReleased s = .next (s.upd fun st => { st with lkc := { st.lkc with
      lrst := false, medium := .free, ordinary := false, followed := none, mark := false, stopped := false } })) ∧
    (s.st.lkc.medium ≠ .reset → exec .lrstReleased s = .next (s.upd fun st => { st with lkc := { st.lkc with
      lrst := false } }))

/-- A rising edge of FLT voids the frame in flight only, and places the bench-fault marker; rotating ID, count and link state
stay. During start-up the edge is its level only. After the release a new edge can come. That the medium stays UNKNOWN where a
station in LISTEN follows its first frame is the model's choice (log 46, DESIGN CHOICE). -/
def Obligations.BenchFaultEdgeVoidsTheFrame : Prop :=
  (∀ s : State, s.st.cfl.stage = .running → s.st.lkc.flt = false →
    Answers .fltRisingEdge s fun t =>
      t.st = { s.st with
        lkc := { s.st.lkc with
          flt := true, medium := t.st.lkc.medium, ordinary := t.st.lkc.ordinary, followed := t.st.lkc.followed,
          mark := t.st.lkc.mark, stopped := t.st.lkc.stopped, outbound := t.st.lkc.outbound,
          inbound := t.st.lkc.inbound }
        rpu := { s.st.rpu with queryPending := t.st.rpu.queryPending } } ∧
        ((s.st.lkc.medium = .frame ∨ s.st.lkc.medium = .objection) →
          t.st.lkc.medium = .free ∧ t.st.lkc.ordinary = false ∧ t.st.lkc.followed = none ∧ t.st.lkc.mark = false ∧
            t.st.lkc.stopped = false ∧ t.st.lkc.outbound = s.st.lkc.backFrom .onWire ∧
            (∀ x ∈ t.st.lkc.outbound, x.place ≠ .onWire) ∧
            (∀ x ∈ s.st.lkc.outbound, x.withdrawn = false → x.place ≠ .onWire → x ∈ t.st.lkc.outbound) ∧
            (s.st.onWireIs Station.isState = false → t.st.rpu.queryPending = s.st.rpu.queryPending) ∧
            (s.st.onWireIs Station.isState = true → t.st.rpu.queryPending = false)) ∧
        (s.st.lkc.medium ≠ .frame → s.st.lkc.medium ≠ .objection →
          t.st.lkc.medium = s.st.lkc.medium ∧ t.st.lkc.ordinary = s.st.lkc.ordinary ∧
            t.st.lkc.followed = s.st.lkc.followed ∧ t.st.lkc.mark = s.st.lkc.mark ∧
            t.st.lkc.stopped = s.st.lkc.stopped ∧ t.st.lkc.outbound = s.st.lkc.outbound ∧
            t.st.rpu.queryPending = s.st.rpu.queryPending) ∧
        (s.st.lkc.link = .listen → t.st.lkc.inbound = s.st.lkc.inbound) ∧
        (s.st.lkc.link ≠ .listen → Entry.benchFault ∈ tailMarkers s.st.lkc.inbound →
          t.st.lkc.inbound = s.st.lkc.inbound) ∧
        (s.st.lkc.link ≠ .listen → Entry.benchFault ∉ tailMarkers s.st.lkc.inbound →
          t.st.lkc.inbound = s.st.lkc.inbound ++ [.benchFault])) ∧
  (∀ s : State, s.Awake → s.st.cfl.stage ≠ .running → s.st.lkc.flt = false →
    exec .fltRisingEdge s = .next (s.upd fun st => { st with lkc := { st.lkc with flt := true } })) ∧
  ∀ s : State, s.Awake → s.st.lkc.flt = true → s.st.lkc.ownFlt = none →
    exec .fltReleased s = .next (s.upd fun st => { st with lkc := { st.lkc with flt := false } })

/-! ### The bench mirror (chapter 1) -/

/-- An accepted RUN_OPEN sets the header, the roster, the pool and the counters, and every block is told its run number, slot
and fingerprint. One refused by a check of R17 (run number 0, a slot that is none, an open run or a run ended with a claim
open, a table that is unusable or differs) leaves the mirror; refused at the table check it gives the table-refusal
notice. -/
def Obligations.RunOpenStartsTheRunOrIsRefused : Prop :=
  (∀ (s : State) (f : Frame) (own : Bool) (rest : List Entry) (sl : Fin 2) (fp first : W32) (count : W16)
    (tb : RunTable), s.Awake → s.Head f own rest → f.body = .runOpen (BitVec.ofNat 8 sl.val) fp first count → f.run ≠ 0 →
    (s.st.bmr.phase = .closed ∨ (s.st.bmr.phase = .ended ∧ ∀ e ∈ s.st.bmr.roster, e.state ≠ .claimed)) →
    s.st.table sl = some tb → tb.fingerprint = fp →
    Answers .takeRunOpen s fun t =>
      t.st = { s.st with
        lkc := { s.st.lkc with inbound := rest }
        notices := .all (some (.opened { run := f.run, slot := sl, fingerprint := fp }))
        bmr := { runNo := f.run, slot := sl, fingerprint := fp, phase := .joining, endCause := none, step := none,
                 stepCount := some tb.steps.length, stepComplete := false, paused := false,
                 roster := List.replicate 128 .absent, pool := t.st.bmr.pool, highWater := t.st.bmr.highWater,
                 issued := 0, sealedCount := 0, spoiledCount := 0, waiting := [] }
        stc := { s.st.stc with inbox := s.st.stc.inbox ++ [.runOpened { run := f.run, slot := sl, fingerprint := fp }] }
        gcu := { s.st.gcu with inbox := s.st.gcu.inbox ++ [.runOpened { run := f.run, slot := sl, fingerprint := fp }] }
        inc := { s.st.inc with
          inbox := s.st.inc.inbox ++ [.runOpened { run := f.run, slot := sl, fingerprint := fp } (.all4 false)] }
        cru := { s.st.cru with inbox := s.st.cru.inbox ++ [.runOpened { run := f.run, slot := sl, fingerprint := fp }] }
        slu := { s.st.slu with
          inbox := s.st.slu.inbox ++ [.runOpened { run := f.run, slot := sl, fingerprint := fp }] } } ∧
      ((count = 0 ∨ first = 0 ∨ 4294967295 < first.toNat + count.toNat - 1) →
        t.st.bmr.pool = [] ∧ t.st.bmr.highWater = 0) ∧
      ((count ≠ 0 ∧ first ≠ 0 ∧ first.toNat + count.toNat - 1 ≤ 4294967295) →
        t.st.bmr.pool = [{ first := first.toNat, count := count.toNat, next := 0 }] ∧
          t.st.bmr.highWater = first.toNat + count.toNat - 1)) ∧
  ∀ (s : State) (f : Frame) (own : Bool) (rest : List Entry) (slot : Byte) (fp first : W32) (count : W16),
    s.Awake → s.Head f own rest → f.body = .runOpen slot fp first count → ¬ s.st.bmr.EndDue →
    let busy := s.st.bmr.phase.isOpen = true ∨ (s.st.bmr.phase = .ended ∧ ∃ e ∈ s.st.bmr.roster, e.state = .claimed)
    (f.run = 0 → s.Ignores .takeRunOpen rest) ∧
    (1 < slot.toNat → s.Ignores .takeRunOpen rest) ∧
    (busy → s.Ignores .takeRunOpen rest) ∧
    ∀ sl : Fin 2, f.run ≠ 0 → slot = BitVec.ofNat 8 sl.val → ¬ busy →
      (∀ tb, s.st.table sl = some tb → tb.fingerprint ≠ fp) →
      exec .takeRunOpen s = .next (s.upd fun st => { st with
        lkc := { st.lkc with inbound := rest }
        stc := { st.stc with inbox := st.stc.inbox ++ [.tableRefusal f.run fp] } })

/-- An applied JOIN makes the masked entries of its node ACTIVE with their classes, and no other entry moves; the station's
own JOIN gives the own-join notice. A JOIN that fails a check of R20 is ignored, with the notice of its own station. -/
def Obligations.AppliedJoinMakesEntriesActive : Prop :=
  (∀ (s : State) (f : Frame) (own : Bool) (rest : List Entry) (mask : Byte) (fp : W32) (js : Quad JoinSocket), s.Awake →
    s.Head f own rest → f.body = .join mask fp js → s.Current f.run → s.st.bmr.phase = .joining →
    (∀ x : Socket, (s.st.bmr.entry (positionOf f x)).state = .absent) →
    ((∃ x : Socket, mask.getLsbD x.val = true) → fp = s.st.bmr.fingerprint) →
    (∀ x : Socket, (js.get x).fault.toNat ≤ 10) →
    Answers .takeJoin s fun t =>
      t.st = { s.st with
        lkc := { s.st.lkc with inbound := rest }
        bmr := { s.st.bmr with roster := t.st.bmr.roster }
        stc := { s.st.stc with inbox := s.st.stc.inbox ++ if own then [.ownJoin true mask] else [] } } ∧
        t.st.bmr.roster.length = s.st.bmr.roster.length ∧
        (∀ x : Socket, mask.getLsbD x.val = true → positionOf f x < s.st.bmr.roster.length →
          t.st.bmr.entry (positionOf f x) =
            { state := .active, cls := (js.get x).cls, lastVerdict := none, out := none, number := none }) ∧
        (∀ i, (∀ x : Socket, mask.getLsbD x.val = true → i ≠ positionOf f x) → t.st.bmr.entry i = s.st.bmr.entry i)) ∧
  ∀ (s : State) (f : Frame) (own : Bool) (rest : List Entry) (mask : Byte) (fp : W32) (js : Quad JoinSocket), s.Awake →
    s.Head f own rest → f.body = .join mask fp js → s.Current f.run → ¬ s.st.bmr.EndDue →
    (s.st.bmr.phase ≠ .joining ∨ (∃ x : Socket, (s.st.bmr.entry (positionOf f x)).state ≠ .absent) ∨
      ((∃ x : Socket, mask.getLsbD x.val = true) ∧ fp ≠ s.st.bmr.fingerprint) ∨
      ∃ x : Socket, 10 < (js.get x).fault.toNat) →
    exec .takeJoin s = .next (s.upd fun st => { st with
      lkc := { st.lkc with inbound := rest }
      stc := { st.stc with inbox := st.stc.inbox ++ if own then [.ownJoin false mask] else [] } })

/-- LOAD_SET(0) starts stepping, or ends the run NONE_LEFT when no entry is ACTIVE; the next LOAD_SET after a completed step
advances it. Any other is ignored. -/
def Obligations.LoadSetStartsOrAdvancesTheStep : Prop :=
  (∀ (s : State) (f : Frame) (own : Bool) (rest : List Entry) (k lp : Byte), s.Awake → s.Head f own rest →
    f.body = .loadSet k lp → s.Current f.run → k.toNat ≤ 23 →
    (s.st.bmr.phase = .joining → k = 0 → (∃ e ∈ s.st.bmr.roster, e.state = .active) →
      (∀ e ∈ s.st.bmr.roster, e.state = .active → e.lastVerdict = none) →
      exec .takeLoadSet s = .next (s.upd fun st => { st with
        lkc := { st.lkc with inbound := rest }
        bmr := { st.bmr with phase := .stepping, step := some 0, stepComplete := false }
        stc := { st.stc with inbox := st.stc.inbox ++ [.loadSet 0 st.bmr.paused false] } })) ∧
    (s.st.bmr.phase = .joining → k = 0 → (∀ e ∈ s.st.bmr.roster, e.state ≠ .active) →
      exec .takeLoadSet s = .next (s.upd fun st => { st with
        lkc := { st.lkc with inbound := rest }
        bmr := { st.bmr with
          phase := .ended, endCause := some .noneLeft, step := none, stepComplete := false, paused := false }
        notices := .all (some (.phase .ended (some .noneLeft)))
        stc := { st.stc with inbox := st.stc.inbox ++ [.loadSet 0 false true, .ended .noneLeft] }
        inc := { st.inc with inbox := st.inc.inbox ++ [.ended .noneLeft] }
        slu := { st.slu with inbox := st.slu.inbox ++ [.ended .noneLeft] } })) ∧
    ∀ c : Nat, s.st.bmr.phase = .stepping → s.st.bmr.step = some c → s.st.bmr.stepComplete = true → k.toNat = c + 1 →
      exec .takeLoadSet s = .next (s.upd fun st => { st with
        lkc := { st.lkc with inbound := rest }
        bmr := { st.bmr with step := some (c + 1), stepComplete := false }
        stc := { st.stc with inbox := st.stc.inbox ++ [.loadSet (c + 1) st.bmr.paused false] } })) ∧
  ∀ (s : State) (f : Frame) (own : Bool) (rest : List Entry) (k lp : Byte), s.Awake → s.Head f own rest →
    f.body = .loadSet k lp → s.Current f.run → ¬ s.st.bmr.EndDue → ¬ (s.st.bmr.phase = .joining ∧ k = 0) →
    ¬ (s.st.bmr.phase = .stepping ∧ s.st.bmr.stepComplete = true ∧ k.toNat ≤ 23 ∧
      ∃ c, s.st.bmr.step = some c ∧ k.toNat = c + 1) → s.Ignores .takeLoadSet rest

/-- A VERDICT of the current step for an ACTIVE entry: PASS sets the last verdict step, FAIL moves the entry OUT(FAILED).
The step-completion test follows either: the step goes on while another ACTIVE entry has no verdict, completes with the last
one (a PASS or a FAIL), gives way to sealing after the last step, and ends the run when no entry is ACTIVE. Any other VERDICT
is ignored. That the phase change to SEALING reaches its blocks as a notice recorded and not taken is DEDUCED (log 5). -/
def Obligations.VerdictMovesItsEntry : Prop :=
  (∀ (s : State) (f : Frame) (own : Bool) (rest : List Entry) (x : Socket) (k : Nat) (v c : Byte) (mean spread : W32)
    (att adj : Byte), s.Awake → s.Head f own rest →
    f.body = .verdict (BitVec.ofNat 8 x.val) (BitVec.ofNat 8 k) v c mean spread att adj → s.Current f.run → k ≤ 23 →
    s.st.bmr.phase = .stepping → s.st.bmr.step = some k → (s.st.bmr.entry (positionOf f x)).state = .active →
    (s.st.bmr.entry (positionOf f x)).lastVerdict ≠ some k →
    let e := s.st.bmr.entry (positionOf f x)
    let after := fun e1 : RosterEntry => { s.st.bmr with roster := s.st.bmr.roster.set (positionOf f x) e1 }
    (v = 0 → Answers .takeVerdict s fun t => s.StepTested t rest (after { e with lastVerdict := some k }) k []) ∧
    (v = 1 → Answers .takeVerdict s fun t =>
      s.StepTested t rest (after { e with state := .out, out := some .failed }) k [])) ∧
  ∀ (s : State) (f : Frame) (own : Bool) (rest : List Entry) (sk k v c : Byte) (mean spread : W32) (att adj : Byte),
    s.Awake → s.Head f own rest → f.body = .verdict sk k v c mean spread att adj → s.Current f.run → ¬ s.st.bmr.EndDue →
    (3 < sk.toNat ∨ 23 < k.toNat ∨ 1 < v.toNat ∨ s.st.bmr.phase ≠ .stepping ∨ s.st.bmr.step ≠ some k.toNat ∨
      (∀ x : Socket, sk = BitVec.ofNat 8 x.val → (s.st.bmr.entry (positionOf f x)).state ≠ .active ∨
        (s.st.bmr.entry (positionOf f x)).lastVerdict = some k.toNat)) → s.Ignores .takeVerdict rest

/-- A BYPASS moves an ACTIVE, DONE or SEAL_WAIT entry OUT with its cause, a SEAL_WAIT one off the waiting list too. In STEPPING
it disturbs, and the step-completion test follows; in JOINING and SEALING it disturbs nothing, and the end test follows. Any
other BYPASS is ignored. That the phase change to SEALING reaches its blocks as a notice recorded and not taken is the model's
reading (log 5, DEDUCED). -/
def Obligations.BypassMovesItsEntryOut : Prop :=
  (∀ (s : State) (f : Frame) (own : Bool) (rest : List Entry) (x : Socket) (k : Byte) (cause : OutCause), s.Awake →
    s.Head f own rest → f.body = .bypass (BitVec.ofNat 8 x.val) cause.code k → s.Current f.run →
    (cause = .overburden ∨ cause = .openCircuit ∨ cause = .shed ∨ cause = .verifyFail) →
    ((s.st.bmr.entry (positionOf f x)).state = .active ∨ (s.st.bmr.entry (positionOf f x)).state = .done ∨
      (s.st.bmr.entry (positionOf f x)).state = .sealWait) →
    let e := s.st.bmr.entry (positionOf f x)
    let m : Mirror := { s.st.bmr with
      roster := s.st.bmr.roster.set (positionOf f x) { e with state := .out, out := some cause }
      waiting := if e.state = .sealWait then s.st.bmr.waiting.filter (· != positionOf f x) else s.st.bmr.waiting }
    (s.st.bmr.phase ≠ .stepping → Answers .takeBypass s fun t => s.EndTested t rest m) ∧
    (∀ c, s.st.bmr.phase = .stepping → s.st.bmr.step = some c →
      Answers .takeBypass s fun t => s.StepTested t rest m c [.disturbance])) ∧
  ∀ (s : State) (f : Frame) (own : Bool) (rest : List Entry) (sk c k : Byte), s.Awake → s.Head f own rest →
    f.body = .bypass sk c k → s.Current f.run → ¬ s.st.bmr.EndDue →
    (3 < sk.toNat ∨
      (∀ cause : OutCause, cause = .overburden ∨ cause = .openCircuit ∨ cause = .shed ∨ cause = .verifyFail →
        c ≠ cause.code) ∨
      (∀ x : Socket, sk = BitVec.ofNat 8 x.val → working (s.st.bmr.entry (positionOf f x)).state = false)) →
    s.Ignores .takeBypass rest

/-- SHED, PAUSE and RESUME, each in its phases: no roster entry moves, and the notices go out; elsewhere they are ignored. -/
def Obligations.ShedPauseResumeGiveNotices : Prop :=
  ∀ (s : State) (f : Frame) (own : Bool) (rest : List Entry), s.Awake → s.Head f own rest → s.Current f.run →
    (∀ l : Byte, f.body = .shed l → l.toNat ≤ 7 → s.st.bmr.phase = .stepping →
      exec .takeShed s = .next (s.upd fun st => { st with
        lkc := { st.lkc with inbound := rest }
        stc := { st.stc with inbox := st.stc.inbox ++ [.disturbance] }
        inc := { st.inc with inbox := st.inc.inbox ++ [.shed l.toNat] } })) ∧
    (f.body = .pause → s.st.bmr.phase.isOpen = true → ¬ s.st.bmr.EndDue → s.st.bmr.paused = false →
      exec .takePause s = .next (s.upd fun st => { st with
        lkc := { st.lkc with inbound := rest }
        bmr := { st.bmr with paused := true }
        stc := { st.stc with inbox := st.stc.inbox ++ [.paused] } })) ∧
    (f.body = .resume → s.st.bmr.phase.isOpen = true → ¬ s.st.bmr.EndDue → s.st.bmr.paused = true →
      exec .takeResume s = .next (s.upd fun st => { st with
        lkc := { st.lkc with inbound := rest }
        bmr := { st.bmr with paused := false }
        stc := { st.stc with inbox := st.stc.inbox ++ [.resumed] } })) ∧
    (¬ s.st.bmr.EndDue →
      (∀ l : Byte, f.body = .shed l → (7 < l.toNat ∨ s.st.bmr.phase ≠ .stepping) → s.Ignores .takeShed rest) ∧
      (f.body = .pause → (s.st.bmr.phase.isOpen = false ∨ s.st.bmr.paused = true) → s.Ignores .takePause rest) ∧
      (f.body = .resume → (s.st.bmr.phase.isOpen = false ∨ s.st.bmr.paused = false) → s.Ignores .takeResume rest))

/-- RUN_ABORT and the bench-fault marker end an open run: working entries go OUT with the cause, CLAIMED and SEALED entries,
the pool and the counters stay. With no open run they change nothing. -/
def Obligations.AbortAndFaultEndTheRun : Prop :=
  (∀ (s : State) (f : Frame) (own : Bool) (rest : List Entry), s.Awake → s.Head f own rest → s.Current f.run →
    f.body = .runAbort →
    (s.st.bmr.phase.isOpen = true → Answers .takeRunAbort s fun t => s.EndedBy t rest .aborted .aborted) ∧
      (s.st.bmr.phase.isOpen = false → s.Ignores .takeRunAbort rest)) ∧
  ∀ (s : State) (rest : List Entry), s.Awake → s.st.lkc.inbound = .benchFault :: rest →
    (s.st.bmr.phase.isOpen = true → Answers .takeBenchFaultMarker s fun t => s.EndedBy t rest .fault .fault) ∧
      (s.st.bmr.phase.isOpen = false → s.Ignores .takeBenchFaultMarker rest)

/-- A link-reset marker disturbs in STEPPING only; a QUERY tells the RPU when it names this station; a STATE does nothing.
None of the three changes the mirror, and neither does a run frame whose number is 0 or not the header's: it is counted, and
the station's own JOIN is answered as ignored, its own SEAL_CLAIM as refused. -/
def Obligations.MarkerQueryAndStrangeFramesLeaveTheMirror : Prop :=
  (∀ (s : State) (rest : List Entry), s.Awake → s.st.lkc.inbound = .linkReset :: rest → ¬ s.st.bmr.EndDue →
    exec .takeLinkResetMarker s = .next (s.upd fun st => { st with
      lkc := { st.lkc with inbound := rest }
      stc := { st.stc with
        inbox := st.stc.inbox ++ if st.bmr.phase = .stepping then [.disturbance] else [] } })) ∧
  (∀ (s : State) (f : Frame) (own : Bool) (rest : List Entry) (target : Byte), s.Awake → s.Head f own rest →
    f.body = .query target → ¬ s.st.bmr.EndDue →
    exec .takeQuery s = .next (s.upd fun st => { st with
      lkc := { st.lkc with inbound := rest }
      rpu := { st.rpu with
        queries := if target.toNat = st.cfl.node.val then st.rpu.queries + 1 else st.rpu.queries } })) ∧
  (∀ (s : State) (f : Frame) (own : Bool) (rest : List Entry) (r : StateReport), s.Awake → s.Head f own rest →
    f.body = .state r → ¬ s.st.bmr.EndDue →
    exec .takeState s = .next (s.upd fun st => { st with lkc := { st.lkc with inbound := rest } })) ∧
  ∀ (s : State) (f : Frame) (own : Bool) (rest : List Entry), s.Awake → s.Head f own rest → ¬ s.st.bmr.EndDue →
    (f.run = 0 ∨ f.run ≠ s.st.bmr.runNo) →
    let counted := fun st : Station => { st with
      lkc := { st.lkc with inbound := rest }
      rpu := { st.rpu with ignored := if st.rpu.ignored < 65535 then st.rpu.ignored + 1 else st.rpu.ignored } }
    (∀ c : Instr, takesRunFrame c f.body = true → (own = false ∨ (c ≠ .takeJoin ∧ c ≠ .takeSealClaim)) →
      exec c s = .next (s.upd counted)) ∧
    (∀ mask fp js, own = true → f.body = .join mask fp js →
      exec .takeJoin s = .next (s.upd fun st => { counted st with
        stc := { st.stc with inbox := st.stc.inbox ++ [.ownJoin false mask] } })) ∧
    ∀ x : Socket, own = true → f.body = .sealClaim (BitVec.ofNat 8 x.val) →
      exec .takeSealClaim s = .next (s.upd fun st => { counted st with
        slu := { st.slu with inbox := st.slu.inbox ++ [.ownClaim x .refused] } })

/-- An accepted POOL_EXTEND appends its block, raises the high-water mark and serves waiting claims in their order, telling
the SLU of its own station's positions as they are served. One that fails a check of R29 is ignored. -/
def Obligations.PoolExtendAppendsAndServes : Prop :=
  (∀ (s : State) (f : Frame) (own : Bool) (rest : List Entry) (first : W32) (count : W16), s.Awake → s.Head f own rest →
    f.body = .poolExtend first count → s.Current f.run → s.st.bmr.phase.isOpen = true → s.st.bmr.pool.length < 4 →
    s.st.bmr.highWater < first.toNat → 1 ≤ count.toNat → first.toNat + count.toNat - 1 ≤ 4294967295 →
    ¬ s.st.bmr.EndDue →
    (s.st.bmr.waiting = [] →
      exec .takePoolExtend s = .next (s.upd fun st => { st with
        lkc := { st.lkc with inbound := rest }
        bmr := { st.bmr with
          pool := st.bmr.pool ++ [{ first := first.toNat, count := count.toNat, next := 0 }]
          highWater := first.toNat + count.toNat - 1 } })) ∧
    (s.st.bmr.pool = [] → s.st.bmr.waiting.Nodup → (∀ i ∈ s.st.bmr.waiting, i < s.st.bmr.roster.length) →
      Answers .takePoolExtend s fun t =>
        t.st = { s.st with
          lkc := { s.st.lkc with inbound := rest }, bmr := t.st.bmr
          slu := { s.st.slu with inbox := t.st.slu.inbox } } ∧
          t.st.bmr.waiting = s.st.bmr.waiting.drop count.toNat ∧
          t.st.bmr.issued = s.st.bmr.issued + min count.toNat s.st.bmr.waiting.length ∧
          t.st.bmr.highWater = first.toNat + count.toNat - 1 ∧
          t.st.bmr.pool = (if s.st.bmr.waiting.length < count.toNat then
            [{ first := first.toNat, count := count.toNat, next := s.st.bmr.waiting.length }] else []) ∧
          t.st.slu.inbox = s.st.slu.inbox ++
            (((s.st.bmr.waiting.take count.toNat).zipIdx first.toNat).filter fun a =>
              a.1 / 4 == s.st.cfl.node.val).map (fun a => .assignment (Fin.ofNat 4 a.1) a.2) ∧
          (∀ n i, n < count.toNat → s.st.bmr.waiting[n]? = some i →
            (t.st.bmr.entry i).state = .claimed ∧ (t.st.bmr.entry i).number = some (first.toNat + n)) ∧
          ∀ i, i ∉ s.st.bmr.waiting.take count.toNat → t.st.bmr.entry i = s.st.bmr.entry i)) ∧
  ∀ (s : State) (f : Frame) (own : Bool) (rest : List Entry) (first : W32) (count : W16), s.Awake → s.Head f own rest →
    f.body = .poolExtend first count → s.Current f.run → ¬ s.st.bmr.EndDue →
    (s.st.bmr.phase.isOpen = false ∨ 4 ≤ s.st.bmr.pool.length ∨ first.toNat ≤ s.st.bmr.highWater ∨ count = 0 ∨
      4294967295 < first.toNat + count.toNat - 1) → s.Ignores .takePoolExtend rest

/-- A SEAL_CLAIM of a DONE entry in SEALING takes the head block's next number, or joins the waiting list; any other
is refused. The station's own claim is answered. A claim that names no socket is ignored. -/
def Obligations.SealClaimTakesANumberOrWaits : Prop :=
  (∀ (s : State) (f : Frame) (own : Bool) (rest : List Entry) (x : Socket), s.Awake → s.Head f own rest →
    f.body = .sealClaim (BitVec.ofNat 8 x.val) → s.Current f.run →
    (∀ (b : PoolBlock) (bs : List PoolBlock), s.st.bmr.phase = .sealing →
      (s.st.bmr.entry (positionOf f x)).state = .done → s.st.bmr.pool = b :: bs →
      exec .takeSealClaim s = .next (s.upd fun st => { st with
        lkc := { st.lkc with inbound := rest }
        bmr := { st.bmr with
          roster := st.bmr.roster.set (positionOf f x)
              ({ st.bmr.entry (positionOf f x) with state := .claimed, number := some (b.first + b.next) })
          pool := if b.next + 1 = b.count then bs else { b with next := b.next + 1 } :: bs
          issued := st.bmr.issued + 1 }
        slu := { st.slu with
          inbox := st.slu.inbox ++ if own then [.ownClaim x (.assigned (b.first + b.next))] else [] } })) ∧
    (s.st.bmr.phase = .sealing → (s.st.bmr.entry (positionOf f x)).state = .done → s.st.bmr.pool = [] →
      exec .takeSealClaim s = .next (s.upd fun st => { st with
        lkc := { st.lkc with inbound := rest }
        bmr := { st.bmr with
          roster := st.bmr.roster.set (positionOf f x) { st.bmr.entry (positionOf f x) with state := .sealWait }
          waiting := st.bmr.waiting ++ [positionOf f x] }
        slu := { st.slu with inbox := st.slu.inbox ++ if own then [.ownClaim x .waiting] else [] } })) ∧
    (¬ s.st.bmr.EndDue → (s.st.bmr.phase ≠ .sealing ∨ (s.st.bmr.entry (positionOf f x)).state ≠ .done) →
      exec .takeSealClaim s = .next (s.upd fun st => { st with
        lkc := { st.lkc with inbound := rest }
        slu := { st.slu with inbox := st.slu.inbox ++ if own then [.ownClaim x .refused] else [] } }))) ∧
  ∀ (s : State) (f : Frame) (own : Bool) (rest : List Entry) (sk : Byte), s.Awake → s.Head f own rest →
    f.body = .sealClaim sk → s.Current f.run → ¬ s.st.bmr.EndDue → 3 < sk.toNat → s.Ignores .takeSealClaim rest

/-- SEAL_DONE and SEAL_SPOIL close a CLAIMED entry that carries their number, in any phase; with another number they raise
the mirror-check notice and change nothing else. The last outcome of SEALING ends the run COMPLETE. An
outcome for an entry that is not CLAIMED, and a SEAL_SPOIL whose cause is none of its five, is ignored. -/
def Obligations.SealOutcomeClosesItsEntry : Prop :=
  (∀ (s : State) (f : Frame) (own : Bool) (rest : List Entry) (x : Socket) (n : W32), s.Awake → s.Head f own rest →
    s.Current f.run → n ≠ 0 → (s.st.bmr.entry (positionOf f x)).state = .claimed →
    (∀ d, f.body = .sealDone (BitVec.ofNat 8 x.val) n d → (s.st.bmr.entry (positionOf f x)).number = some n.toNat →
      Answers .takeSealDone s fun t => s.Closes t rest (positionOf f x) .sealed none 1 0) ∧
    (∀ c : SpoilCause, f.body = .sealSpoil (BitVec.ofNat 8 x.val) n c.code →
      (s.st.bmr.entry (positionOf f x)).number = some n.toNat →
      Answers .takeSealSpoil s fun t => s.Closes t rest (positionOf f x) .out (some .sealSpoiled) 0 1) ∧
    (∀ d, f.body = .sealDone (BitVec.ofNat 8 x.val) n d → (s.st.bmr.entry (positionOf f x)).number ≠ some n.toNat →
      exec .takeSealDone s = .next (s.upd fun st => { st with
        lkc := { st.lkc with inbound := rest, mirrorChecks := st.lkc.mirrorChecks + 1 } })) ∧
    (∀ c : SpoilCause, f.body = .sealSpoil (BitVec.ofNat 8 x.val) n c.code →
      (s.st.bmr.entry (positionOf f x)).number ≠ some n.toNat →
      exec .takeSealSpoil s = .next (s.upd fun st => { st with
        lkc := { st.lkc with inbound := rest, mirrorChecks := st.lkc.mirrorChecks + 1 } }))) ∧
  (∀ (s : State) (f : Frame) (own : Bool) (rest : List Entry) (sk c : Byte) (n : W32), s.Awake → s.Head f own rest →
    s.Current f.run → ¬ s.st.bmr.EndDue → f.body = .sealSpoil sk n c → (∀ k : SpoilCause, c ≠ k.code) →
    s.Ignores .takeSealSpoil rest) ∧
  ∀ (s : State) (f : Frame) (own : Bool) (rest : List Entry) (sk : Byte) (n : W32), s.Awake → s.Head f own rest →
    s.Current f.run → ¬ s.st.bmr.EndDue →
    (n = 0 ∨ 3 < sk.toNat ∨
      ∀ x : Socket, sk = BitVec.ofNat 8 x.val → (s.st.bmr.entry (positionOf f x)).state ≠ .claimed) →
    (∀ d, f.body = .sealDone sk n d → s.Ignores .takeSealDone rest) ∧
      ∀ c, f.body = .sealSpoil sk n c → s.Ignores .takeSealSpoil rest

/-- An ANNOUNCE closes every position its node still has in the run, counts the numbers they held as spoiled, takes the
numbers from the entries and the entries off the waiting list; no other entry moves. In STEPPING it disturbs when an ACTIVE
entry moved, and the step-completion test follows; elsewhere the end test. That the phase change to SEALING reaches its
blocks as a notice recorded and not taken is the model's reading (log 5, DEDUCED). -/
def Obligations.AnnounceClosesItsNodesPositions : Prop :=
  ∀ (s : State) (f : Frame) (own : Bool) (rest : List Entry) (status mask : Byte) (a b : W32), s.Awake →
    s.Head f own rest → f.body = .announce status a b mask →
    ∃ m : Mirror,
      m = { s.st.bmr with
        roster := m.roster
        waiting := s.st.bmr.waiting.filter fun i => i / 4 != f.sender.toNat
        spoiledCount := s.st.bmr.spoiledCount +
          (List.finRange 4).countP fun x => (s.st.bmr.entry (positionOf f x)).state == .claimed } ∧
      m.roster.length = s.st.bmr.roster.length ∧
      (∀ x : Socket, inRunOrClaimed (s.st.bmr.entry (positionOf f x)).state = true →
        m.entry (positionOf f x) =
          { s.st.bmr.entry (positionOf f x) with state := .out, out := some .restart, number := none }) ∧
      (∀ x : Socket, inRunOrClaimed (s.st.bmr.entry (positionOf f x)).state = false →
        m.entry (positionOf f x) = s.st.bmr.entry (positionOf f x)) ∧
      (∀ i, i / 4 ≠ f.sender.toNat → m.entry i = s.st.bmr.entry i) ∧
      (s.st.bmr.phase ≠ .stepping → Answers .takeAnnounce s fun t => s.EndTested t rest m) ∧
      ∀ k, s.st.bmr.phase = .stepping → s.st.bmr.step = some k →
        ((∃ x : Socket, (s.st.bmr.entry (positionOf f x)).state = .active) →
          Answers .takeAnnounce s fun t => s.StepTested t rest m k [.disturbance]) ∧
        ((∀ x : Socket, (s.st.bmr.entry (positionOf f x)).state ≠ .active) →
          Answers .takeAnnounce s fun t => s.StepTested t rest m k [])

/-- Within a run, SEALED and OUT entries stay so: only an accepted RUN_OPEN or power-on reset moves them. The waiting list
is taken to name positions in SEAL_WAIT, as SealAccountsKept says every step keeps it. -/
def Obligations.SealedAndOutEntriesStay : Prop :=
  ∀ (c : Instr) (s : State) (i : Nat), s.st.bmr.WaitingSound → c ≠ .powerOnReset → c ≠ .takeRunOpen →
    ((s.st.bmr.entry i).state = .sealed ∨ (s.st.bmr.entry i).state = .out) →
    ∃ t, exec c s = .next t ∧ t.st.bmr.entry i = s.st.bmr.entry i

/-! ### The Step Controller (chapter 3) -/

/-- At the run-opened notice every enabled socket is JOINING with a fresh context; with no socket enabled the JOIN is offered
at once. A table refusal offers a JOIN of fault codes. Both go by the rows of the announce place. The model's choices: that a
JOIN put in the place of one which is the candidate of a running round is the candidate in its stead (log 37, DESIGN CHOICE),
that such a JOIN leaves a deferred one waiting (log 40, DESIGN CHOICE), and bits 4..7 of its mask (log 45, DESIGN CHOICE). A
window's end report behind the notice is dropped (log 18, DEDUCED). The run's table slot is kept as the notice carries it (log
15, DEDUCED). That TABLE_MISMATCH is recorded in the INC as it stands, a later run's notice taken or not, is the model's
choice (log 48, DESIGN CHOICE). That the other reports behind the notice stay and are taken as the new run's, those a block
still at the closed run made of it among them, is the model's choice (log 51, DESIGN CHOICE). -/
def Obligations.RunOpenedPreparesTheContexts : Prop :=
  (∀ (s : State) (h : RunHeader) (rest : List StcMsg), s.Awake → s.st.stc.inbox = .runOpened h :: rest → (∃ x, s.st.enabled x = true) →
    exec .stcRunOpened s = .next (s.upd fun st => { st with stc := { st.stc with
      inbox := rest.filter fun m => !m.isWindowEnd
      joinedMask := .all4 false, classes := .all4 0, joinPlaced := false, slot := h.slot, runEnded := none
      ctx := .tabulate fun x =>
        { run := if st.enabled x then .joining else .idle, attempt := 1, adjustments := 0, disturbed := false,
          settle := none, settlePeriod := none, waitMask := false, lastWindow := none, outCause := none,
          verdicts := [] } } })) ∧
  (∀ (s : State) (h : RunHeader) (rest : List StcMsg), s.Awake → s.st.stc.inbox = .runOpened h :: rest → (∀ x, s.st.enabled x = false) →
    Answers .stcRunOpened s fun t =>
      t.st = { s.st with
        stc := { s.st.stc with
          inbox := rest.filter fun m => !m.isWindowEnd
          joinedMask := .all4 false, classes := .all4 0, joinPlaced := true, slot := h.slot, runEnded := none
          ctx := .all4
            { run := .idle, attempt := 1, adjustments := 0, disturbed := false, settle := none, settlePeriod := none,
              waitMask := false, lastWindow := none, outCause := none, verdicts := [] } }
        lkc := t.st.lkc } ∧
      s.st.lkc.TakesJoin t.st.lkc {
        run := s.st.bmr.runNo, body := .join 0 s.st.bmr.fingerprint (.all4 { cls := 0, fault := 1 }),
        place := .queued, withdrawn := false, counted := false }) ∧
  ∀ (s : State) (rest : List StcMsg) (run : Byte) (fp : W32), s.Awake →
    Heard StcMsg.overtakes s.st.stc.inbox (.tableRefusal run fp) rest →
    let j : OutEntry :=
      { run := run, body := .join 0 fp (.all4 { cls := 0, fault := 9 }), place := .queued, withdrawn := false,
        counted := false }
    Answers .stcTableRefusal s fun t =>
      t.st = { s.st with
        stc := { s.st.stc with inbox := rest }
        inc := { s.st.inc with sockets := s.st.inc.sockets.map fun i => { i with joinFault := .tableMismatch } }
        lkc := t.st.lkc } ∧
      s.st.lkc.TakesJoin t.st.lkc j

/-- A join outcome makes its socket joined or IDLE; the last outcome offers the station's JOIN, with the classes of the joined
sockets and the fault codes of the others, and behind an ANNOUNCE, or behind a JOIN on the wire, it is deferred. The model's
choices: an INC fault since takes a socket out of the mask (log 17), which JOIN a replacement or a new deferral puts in the
place of which (logs 37 and 40, DESIGN CHOICE), and bits 4..7 of its mask (log 45, DESIGN CHOICE). That an outcome of a closed
run's join which finds its socket JOINING anew is taken as the new join's is the model's choice (log 51, DESIGN CHOICE). -/
def Obligations.JoinOutcomesBuildTheJoin : Prop :=
  ∀ (s : State) (rest : List StcMsg) (x : Socket), s.Awake → (s.st.ctx x).run = .joining →
    (∀ c, Heard StcMsg.overtakes s.st.stc.inbox (.joinOutcome x (.fault c)) rest →
      (∃ y, y ≠ x ∧ (s.st.ctx y).run = .joining ∧ s.st.stc.joinedMask.get y = false) →
      exec (.joinOutcome x) s = .next (s.upd fun st => { st with stc := { st.stc with
        inbox := rest, ctx := st.stc.ctx.set x { st.ctx x with run := .idle } } })) ∧
    (∀ cls, Heard StcMsg.overtakes s.st.stc.inbox (.joinOutcome x (.joined cls)) rest →
      (∃ y, y ≠ x ∧ (s.st.ctx y).run = .joining ∧ s.st.stc.joinedMask.get y = false) →
      exec (.joinOutcome x) s = .next (s.upd fun st => { st with stc := { st.stc with
        inbox := rest, joinedMask := st.stc.joinedMask.set x true, classes := st.stc.classes.set x cls } })) ∧
    ∀ (o : JoinOutcome), Heard StcMsg.overtakes s.st.stc.inbox (.joinOutcome x o) rest → s.st.stc.joinPlaced = false →
      (∀ y, y ≠ x → (s.st.ctx y).run = .joining → s.st.stc.joinedMask.get y = true) →
      let joins := match o with | .joined _ => true | .fault _ => false
      let joined := fun y => ((y == x && joins) || s.st.stc.joinedMask.get y) &&
        decide ((s.st.incSocket y).joinFault = .none)
      let cls := match o with | .joined c => s.st.stc.classes.set x c | .fault _ => s.st.stc.classes
      Answers (.joinOutcome x) s fun t =>
        t.st = { s.st with
          stc := { s.st.stc with
            inbox := rest, joinPlaced := true, joinedMask := .tabulate joined, classes := cls
            ctx := if joins then s.st.stc.ctx else s.st.stc.ctx.set x { s.st.ctx x with run := .idle } }
          lkc := t.st.lkc } ∧
        s.st.lkc.TakesJoin t.st.lkc (s.st.joinFor joined cls)

/-- The applied own JOIN makes its sockets JOINED and places each deferred BYPASS; the ignored one ends their joins LATE and
drops the deferred. That several deferred BYPASSes are placed in logical order 0..3 is the model's choice (log 43, DESIGN
CHOICE). A late end of a join whose run-opened notice the INC has yet to take waits with that notice (log 48, DEDUCED); that
one acts on the INC as it stands where the INC is at a later run is the model's choice (log 48, DESIGN CHOICE). That an
ignored JOIN which is not the one a deferred BYPASS waits for discards it too is the model's choice (log 53, DESIGN CHOICE).
-/
def Obligations.OwnJoinResultMovesItsSockets : Prop :=
  ∀ (s : State) (rest : List StcMsg) (mask : Byte), s.Awake →
    (Heard StcMsg.overtakes s.st.stc.inbox (.ownJoin true mask) rest →
      Answers .ownJoinApplied s fun t =>
        t.st = { s.st with
          stc := { s.st.stc with inbox := rest, ctx := t.st.stc.ctx }
          lkc := { s.st.lkc with outbound := t.st.lkc.outbound }
          inc := { s.st.inc with sockets := s.st.inc.sockets.map fun i => { i with deferred := none } } } ∧
        (∀ x, t.st.ctx x = if mask.getLsbD x.val = true ∧ (s.st.ctx x).run = .joining
          then { s.st.ctx x with run := .joined } else s.st.ctx x) ∧
        t.st.lkc.outbound = ([0, 1, 2, 3] : List Socket).foldl (fun q x => match (s.st.incSocket x).deferred with
          | some c => s.st.bypassPlaced q x c
          | none => q) s.st.lkc.outbound) ∧
    (Heard StcMsg.overtakes s.st.stc.inbox (.ownJoin false mask) rest →
      Answers .ownJoinIgnored s fun t =>
        t.st = { s.st with
          stc := { s.st.stc with inbox := rest, ctx := t.st.stc.ctx }
          inc := { s.st.inc with sockets := t.st.inc.sockets, inbox := t.st.inc.inbox } } ∧
        (s.st.stcLeft rest).LateEndsKept (fun x => mask.getLsbD x.val && (s.st.ctx x).run == .joining) t.st.inc.inbox ∧
        ∀ x, (mask.getLsbD x.val = true ∧ (s.st.ctx x).run = .joining →
            t.st.ctx x = { s.st.ctx x with run := .idle } ∧
              t.st.incSocket x = { (s.st.stcLeft rest).endedLate x with deferred := none }) ∧
          (¬ (mask.getLsbD x.val = true ∧ (s.st.ctx x).run = .joining) →
            t.st.ctx x = s.st.ctx x ∧ t.st.incSocket x = { s.st.incSocket x with deferred := none }))

/-- The load-set notice is taken: sockets whose entries are ACTIVE settle for the step, or are held in a pause; unfinished
joins end LATE at step 0, one whose run-opened notice the INC has yet to take among them, whose late end waits with that
notice so that it does not begin (log 48, DEDUCED); stepping and JOINED sockets whose entries are not ACTIVE leave, whatever
their verdict, with the entry's out cause. What the local cause is where the entry carries none is log 14 (DEDUCED for ABSENT,
a free value for the rest); that a leaving socket's window which ended before is evaluated first, as WindowEndIsEvaluated
states beforeVoids, is log 18 (DEDUCED); that a late end acts on the INC as it stands where the INC is at a later run is the
model's choice (log 48, DESIGN CHOICE). The record of a step is the station's own in the table slot of the run the STC is at
(that the STC keeps that slot is log 15, DEDUCED). -/
def Obligations.LoadSetStartsItsSockets : Prop :=
  (∀ (st : Station) (tb : RunTable) (k : Nat) (r : StepRecord), st.table st.stc.slot = some tb → tb.steps[k]? = some r →
    st.stepRec k = r) ∧
  ∀ (s : State) (rest : List StcMsg) (k : Nat) (paused noneLeft : Bool), s.Awake →
    Heard StcMsg.overtakes s.st.stc.inbox (.loadSet k paused noneLeft) rest →
    let u := (s.st.stcLeft rest).beforeVoids fun x => (s.st.ownEntry x).state != .active
    let leaves := fun x =>
      ((u.ctx x).run.stepping || (u.ctx x).run == .joined) && (u.ownEntry x).state != .active
    Answers .stcLoadSet s fun t =>
      t.st = { u with
        stc := { u.stc with ctx := t.st.stc.ctx, step := k }
        lkc := { u.lkc with outbound := verdictsWithdrawn leaves u.lkc.outbound }
        inc := { u.inc with sockets := t.st.inc.sockets, inbox := t.st.inc.inbox }
        gcu := { u.gcu with sockets := t.st.gcu.sockets } } ∧
      u.LateEndsKept (fun x => k == 0 && (u.ctx x).run == .joining) t.st.inc.inbox ∧
      ∀ x,
        let starts := (u.ownEntry x).state = .active ∧
          ((k = 0 ∧ (u.ctx x).run = .joined) ∨ (0 < k ∧ (u.ctx x).passed = true))
        (starts →
          let fresh := { u.ctx x with attempt := 1, adjustments := 0, lastWindow := none }
          t.st.ctx x = (if paused then fresh.holds else fresh.settles (u.stepRec k).settle) ∧
            t.st.incSocket x = u.incSocket x ∧ t.st.gcuSocket x = u.gcuSocket x) ∧
        ((u.ctx x).run = .joining → k = 0 →
          t.st.ctx x = (if noneLeft then (u.ctx x).leaves .late else { u.ctx x with run := .idle }) ∧
            t.st.incSocket x = u.endedLate x ∧ t.st.gcuSocket x = u.gcuSocket x) ∧
        (leaves x = true →
          t.st.ctx x = (u.ctx x).leaves (u.rosterCause x) ∧ t.st.incSocket x = (u.incSocket x).shut ∧
            t.st.gcuSocket x = (u.gcuSocket x).voided) ∧
        (¬ starts → leaves x = false → ((u.ctx x).run ≠ .joining ∨ 0 < k) →
          t.st.ctx x = u.ctx x ∧ t.st.incSocket x = u.incSocket x ∧ t.st.gcuSocket x = u.gcuSocket x)

/-- A settled socket becomes READY, unless its pulse mask runs: then at the mask's end. A settle timer that a disturbance has
restarted does not end at the expiry of its first run. At RDY's rising edge every READY socket measures, its window opened
with the step's parameters. That a timer which has run out stands at 1 until its expiry comes is the model's choice (log 2,
DESIGN CHOICE). That a window opens also while a notice or report that will void it is given and not yet taken is the model's
choice (log 49, DESIGN CHOICE). The step's record is that of the STC's run, as LoadSetStartsItsSockets states it (log 15,
DEDUCED). -/
def Obligations.SettledSocketsMeasureAtTheBarrier : Prop :=
  (∀ (s : State) (x : Socket) (n : Nat), s.Awake → (s.st.ctx x).run = .settling → (s.st.ctx x).settle = some n →
    (1 < n → exec (.settleTimerExpiry x) s = .next s) ∧
    (n ≤ 1 → s.st.masked x = false → exec (.settleTimerExpiry x) s = .next (s.upd fun st => st.modCtx x fun c =>
      { c with run := .ready, settle := none, settlePeriod := none, waitMask := false })) ∧
    (n ≤ 1 → s.st.masked x = true → exec (.settleTimerExpiry x) s = .next (s.upd fun st => st.modCtx x fun c =>
      { c with settle := none, waitMask := true }))) ∧
  (∀ (s : State) (x : Socket) (rest : List StcMsg), s.Awake → Heard StcMsg.overtakes s.st.stc.inbox (.maskEnd x) rest →
    (s.st.ctx x).run = .settling → (s.st.ctx x).waitMask = true →
    exec (.stcMaskEnd x) s = .next (s.upd fun st => (st.stcLeft rest).modCtx x fun c =>
      { c with run := .ready, settle := none, settlePeriod := none, waitMask := false })) ∧
  (∀ s : State, s.Awake → s.st.gcu.rdy = false → s.st.rdyPull = false →
    Answers .rdyRisingEdge s fun t =>
      t.st = { s.st with
        stc := { s.st.stc with ctx := t.st.stc.ctx }
        gcu := { s.st.gcu with rdy := true, sockets := t.st.gcu.sockets } } ∧
      ∀ x, ((s.st.ctx x).run = .ready →
          t.st.ctx x = { s.st.ctx x with run := .measuring } ∧
            t.st.gcuSocket x = { s.st.gcuSocket x with
              samples := [], window := Station.windowFor s.st.curStep (s.st.profileKm x) s.st.runKr }) ∧
        ((s.st.ctx x).run ≠ .ready → t.st.ctx x = s.st.ctx x ∧ t.st.gcuSocket x = s.st.gcuSocket x)) ∧
  ∀ (r : StepRecord) (km kr : Nat),
    (r.kind = .accuracy → Station.windowFor r km kr = .accuracy
      { n := r.n, s := r.s, timeoutMs := r.gateTimeout * 1000, km := km, kr := kr } none (r.gateTimeout * 1000)) ∧
    (r.kind = .creep → Station.windowFor r km kr = .creep r.w (r.w * 1000) 0) ∧
    (r.kind = .start → Station.windowFor r km kr = .start r.w (r.w * 1000) 0)

/-- A disturbance settles SETTLING, READY and MEASURING sockets anew, voiding their windows, and marks the correcting ones.
RDY's falling edge is one while a socket measures. At the disturbance notice, which is taken, a stepping socket whose entry is
not ACTIVE leaves first. The model's readings: a socket whose PASS of the run's last step made the entry DONE stays for R84
(log 14, DEDUCED), as is what the local cause is where the entry carries none (log 14: DEDUCED for ABSENT, a free value for
the rest), and a window that ended before is evaluated first, as WindowEndIsEvaluated states beforeVoids (log 18, DEDUCED).
The step's record is that of the STC's run, as LoadSetStartsItsSockets states it (log 15, DEDUCED). -/
def Obligations.DisturbanceSettlesAnew : Prop :=
  (∀ s : State, s.Awake → s.st.gcu.rdy = true →
    let u := s.st.beforeVoids fun _ => true
    let measures := fun x => (u.ctx x).run == .measuring
    ((∃ x, measures x = true) → Answers .rdyFallingEdge s fun t =>
      t.st = { u with
        stc := { u.stc with ctx := t.st.stc.ctx }, gcu := { u.gcu with rdy := false, sockets := t.st.gcu.sockets } } ∧
      ∀ x, t.st.ctx x = (u.ctx x).disturbedBy u.curStep.settle ∧
        t.st.gcuSocket x = if measures x then (u.gcuSocket x).voided else u.gcuSocket x) ∧
    ((∀ x, measures x = false) →
      exec .rdyFallingEdge s = .next (s.upd fun _ => { u with gcu := { u.gcu with rdy := false } }))) ∧
  ∀ (s : State) (rest : List StcMsg), s.Awake → Heard StcMsg.overtakes s.st.stc.inbox .disturbance rest →
    let u := (s.st.stcLeft rest).beforeVoids fun _ => true
    let leaves := fun x => (u.ctx x).run.stepping && u.left x
    let voids := fun x => leaves x || (u.ctx x).run == .measuring
    Answers .stcDisturbance s fun t =>
      t.st = { u with
        stc := { u.stc with ctx := t.st.stc.ctx }
        lkc := { u.lkc with outbound := verdictsWithdrawn leaves u.lkc.outbound }
        inc := { u.inc with sockets := t.st.inc.sockets }
        gcu := { u.gcu with sockets := t.st.gcu.sockets } } ∧
      ∀ x,
        (leaves x = true →
          t.st.ctx x = (u.ctx x).leaves (u.rosterCause x) ∧ t.st.incSocket x = (u.incSocket x).shut) ∧
        (leaves x = false →
          t.st.ctx x = (u.ctx x).disturbedBy u.curStep.settle ∧ t.st.incSocket x = u.incSocket x) ∧
        t.st.gcuSocket x = if voids x then (u.gcuSocket x).voided else u.gcuSocket x

/-- A pause holds settling, ready and measuring sockets, voiding their windows; a window that ended before is evaluated first,
as WindowEndIsEvaluated states beforeVoids (log 18, DEDUCED). At the resume the held ones settle 1000 ms longer. Both notices
are taken. The step's record is that of the STC's run, as LoadSetStartsItsSockets states it (log 15, DEDUCED). -/
def Obligations.PauseHoldsAndResumeSettles : Prop :=
  (∀ (s : State) (rest : List StcMsg), s.Awake → Heard StcMsg.overtakes s.st.stc.inbox .paused rest →
    let u := (s.st.stcLeft rest).beforeVoids fun _ => true
    let measures := fun x => (u.ctx x).run == .measuring
    Answers .stcPaused s fun t =>
      t.st = { u with
        stc := { u.stc with ctx := t.st.stc.ctx }
        gcu := { u.gcu with sockets := t.st.gcu.sockets } } ∧
      ∀ x, t.st.ctx x = (u.ctx x).pausedBy ∧
        t.st.gcuSocket x = if measures x then (u.gcuSocket x).voided else u.gcuSocket x) ∧
  ∀ (s : State) (rest : List StcMsg), s.Awake → Heard StcMsg.overtakes s.st.stc.inbox .resumed rest →
    exec .stcResumed s = .next (s.upd fun st => { st with stc := { st.stc with
      inbox := rest
      ctx := st.stc.ctx.map fun c => if c.run = .held then c.settles (st.curStep.settle + 1000) else c } })

/-- The end of an accuracy window of a MEASURING socket is evaluated by the checks of R79 in order; a creep or start window
ends in its verdict. Before the voids of some sockets' windows are asked for, the end of each that is MEASURING and has one
waiting is taken in the same way (that it is, is log 18, DEDUCED, and the order of the sockets, 0..3, log 43, DESIGN CHOICE);
nothing else happens then. That a window opens also while a notice or report that will void it is given and not yet taken is
the model's choice (log 49, DESIGN CHOICE). The step's record is that of the STC's run, as LoadSetStartsItsSockets states it
(log 15, DEDUCED). -/
def Obligations.WindowEndIsEvaluated : Prop :=
  (∀ (s : State) (x : Socket) (rest : List StcMsg) (r : WindowReport), s.Awake →
    Heard StcMsg.overtakes s.st.stc.inbox (.accuracyEnd x r) rest → (s.st.ctx x).run = .measuring →
    let p := s.st.curStep
    let c := s.st.ctx x
    let noted := fun st : Station => (st.stcLeft rest).modCtx x fun c => { c with lastWindow := some (r.mean, r.spread) }
    let tooHigh := ∃ y ∈ r.samples, y.status = .overRange
    let verdict := fun v => exec (.accuracyWindowEnd x) s =
      .next (s.upd fun st => (noted st).judged x v r.mean r.spread c.attempt c.adjustments)
    (c.attempt < p.attempts → (r.timedOut = true ∨ tooHigh ∨ p.spread < r.spread) →
      let next := { c with lastWindow := some (r.mean, r.spread), attempt := c.attempt + 1 }
      (s.st.bmr.paused = true →
        exec (.accuracyWindowEnd x) s = .next (s.upd fun st => (noted st).modCtx x fun _ => next.holds)) ∧
      (s.st.bmr.paused = false → (c.disturbed = true ∨ s.st.rdyHigh = false) →
        exec (.accuracyWindowEnd x) s = .next (s.upd fun st => (noted st).modCtx x fun _ => next.settles p.settle)) ∧
      (s.st.bmr.paused = false → c.disturbed = false → s.st.rdyHigh = true →
        exec (.accuracyWindowEnd x) s = .next (s.upd fun st => ((noted st).modCtx x fun _ => next).measures x))) ∧
    (p.attempts ≤ c.attempt →
      (r.timedOut = true → verdict (.fail .noPulse)) ∧ (r.timedOut = false → tooHigh → verdict (.fail .overRange)) ∧
      (r.timedOut = false → ¬ tooHigh → p.spread < r.spread → verdict (.fail .spread))) ∧
    (r.timedOut = false → ¬ tooHigh → r.spread ≤ p.spread →
      (p.lower ≤ r.mean → r.mean ≤ p.upper → verdict .pass) ∧
      ((r.mean < p.lower ∨ p.upper < r.mean) →
        (∀ ch, adjustChannel p.adjust = some ch → s.st.adjustable x ch = true → c.attempt < p.attempts →
          exec (.accuracyWindowEnd x) s = .next (s.upd fun st => { noted st with
            stc := { (noted st).stc with ctx := (noted st).stc.ctx.set x { (noted st).ctx x with run := .adjusting } }
            cru := { st.cru with inbox := st.cru.inbox ++ [.correction x ch r.mean] } })) ∧
        ((p.attempts ≤ c.attempt ∨ ∀ ch, adjustChannel p.adjust = some ch → s.st.adjustable x ch = false) →
          verdict (.fail .limit))))) ∧
  (∀ (s : State) (x : Socket) (rest : List StcMsg) (v : Verdict) (n : Nat), s.Awake →
    Heard StcMsg.overtakes s.st.stc.inbox (.timedEnd x v n) rest → (s.st.ctx x).run = .measuring →
    exec (.creepStartWindowEnd x) s = .next (s.upd fun st => (st.stcLeft rest).judged x v 0 0 1 0)) ∧
  (∀ (s : State) (x : Socket) (rest : List StcMsg), s.Awake → (s.st.ctx x).run = .measuring → .maskEnd x ∉ rest →
    (∀ r, Heard StcMsg.overtakes s.st.stc.inbox (.accuracyEnd x r) rest →
      exec (.accuracyWindowEnd x) s = .next (s.upd (Station.beforeVoids (· == x)))) ∧
    ∀ v n, Heard StcMsg.overtakes s.st.stc.inbox (.timedEnd x v n) rest →
      exec (.creepStartWindowEnd x) s = .next (s.upd (Station.beforeVoids (· == x)))) ∧
  ∀ (st : Station) (p : Socket → Bool),
    ((∀ x, p x = true → (st.ctx x).run = .measuring → ∀ m ∈ st.stc.inbox, m.windowEnd x = none) →
      st.beforeVoids p = st) ∧
    st.beforeVoids p =
      ([0, 1, 2, 3] : List Socket).foldl (fun u x => if p x then u.beforeVoids (· == x) else u) st

/-- A correction's outcome: MASKED with attempt and adjustment counted, a FAIL with the window that was to be corrected, or
OUT once the run has ended, with the cause endOutCause gives, as StepEndAndRunEndMoveSockets states it (log 14). A mask end
lets a MASKED socket measure again. That a window opens also while a notice or report that will void it is given and not yet
taken is the model's choice (log 49, DESIGN CHOICE). The step's record is that of the STC's run, as LoadSetStartsItsSockets
states it (log 15, DEDUCED). That the outcome of a closed run's adjustment which finds its socket ADJUSTING anew is taken as
the new one's is the model's choice (log 51, DESIGN CHOICE). -/
def Obligations.AdjustmentOutcomeActs : Prop :=
  (∀ (s : State) (x : Socket) (rest : List StcMsg) (o : AdjustOutcome), s.Awake →
    Heard StcMsg.overtakes s.st.stc.inbox (.adjusted x o) rest → (s.st.ctx x).run = .adjusting →
    (s.st.stc.runEnded = none → o = .ok →
      exec (.adjustmentOutcome x) s = .next (s.upd fun st => (st.stcLeft rest).modCtx x fun c =>
        { c with run := .masked, adjustments := c.adjustments + 1, attempt := c.attempt + 1 })) ∧
    (∀ f m d, s.st.stc.runEnded = none → (s.st.ctx x).lastWindow = some (m, d) →
      ((o = .adjLimit ∧ f = .adjLimit) ∨ (o = .locked ∧ f = .locked) ∨ (o = .svcFail ∧ f = .svcFail)) →
      exec (.adjustmentOutcome x) s = .next (s.upd fun st =>
        (st.stcLeft rest).judged x (.fail f) m d (st.ctx x).attempt (st.ctx x).adjustments)) ∧
    ∀ e, s.st.stc.runEnded = some e →
      exec (.adjustmentOutcome x) s = .next (s.upd fun st =>
        (st.stcLeft rest).modCtx x fun c => c.leaves (st.endOutCause x e))) ∧
  ∀ (s : State) (x : Socket) (rest : List StcMsg), s.Awake → Heard StcMsg.overtakes s.st.stc.inbox (.maskEnd x) rest →
    (s.st.ctx x).run = .masked →
    (s.st.bmr.paused = true →
      exec (.stcMaskEnd x) s = .next (s.upd fun st => (st.stcLeft rest).modCtx x RunCtx.holds)) ∧
    (s.st.bmr.paused = false → ((s.st.ctx x).disturbed = true ∨ s.st.rdyHigh = false) →
      exec (.stcMaskEnd x) s = .next (s.upd fun st =>
        (st.stcLeft rest).modCtx x fun c => c.settles st.curStep.settle)) ∧
    (s.st.bmr.paused = false → (s.st.ctx x).disturbed = false → s.st.rdyHigh = true →
      exec (.stcMaskEnd x) s = .next (s.upd fun st => (st.stcLeft rest).measures x))

/-- Step completion: sockets whose entries are not ACTIVE leave with the entry's out cause, a failed one whose VERDICT was
applied with FAILED, and those whose PASS of the run's last step made the entry DONE stay (log 14, DEDUCED); failed sockets go
OUT, and after the last step passed ones are handed over. The end of the run takes every socket of the run OUT by its run
state and closes every shunt. Which local out cause an entry gives: its own; LATE when ABSENT (DEDUCED outside R89, log 14); a
free value for an entry in the run (log 14). That the window of a leaving socket which ended before is evaluated first, as
WindowEndIsEvaluated states beforeVoids, is log 18 (DEDUCED); that the late end of a join whose run-opened notice the INC has
yet to take waits with that notice is log 48 (DEDUCED), and that one acts on the INC as it stands where the INC is at a later
run is the model's choice (log 48, DESIGN CHOICE). -/
def Obligations.StepEndAndRunEndMoveSockets : Prop :=
  (∀ (s : State) (rest : List StcMsg) (k : Nat) (last : Bool), s.Awake →
    Heard StcMsg.overtakes s.st.stc.inbox (.stepComplete k last) rest →
    let u := (s.st.stcLeft rest).beforeVoids s.st.left
    let leaves := fun x => (u.ctx x).run.stepping && u.left x
    let hands := fun x => !leaves x && (u.ctx x).passed && last
    Answers .stcStepComplete s fun t =>
      t.st = { u with
        stc := { u.stc with ctx := t.st.stc.ctx }
        lkc := { u.lkc with outbound := verdictsWithdrawn leaves u.lkc.outbound }
        inc := { u.inc with sockets := t.st.inc.sockets }
        gcu := { u.gcu with sockets := t.st.gcu.sockets }
        slu := { u.slu with
          inbox := u.slu.inbox ++ (([0, 1, 2, 3] : List Socket).filter hands).map SluMsg.handOver } } ∧
      ∀ x,
        (leaves x = true →
          t.st.ctx x = (u.ctx x).leaves (u.rosterCause x) ∧ t.st.incSocket x = (u.incSocket x).shut ∧
            t.st.gcuSocket x = (u.gcuSocket x).voided) ∧
        ((u.ctx x).failed = true → (u.ownEntry x).state = .out → (u.ownEntry x).out = some .failed →
          t.st.ctx x = (u.ctx x).leaves .failed ∧ t.st.incSocket x = (u.incSocket x).shut) ∧
        (leaves x = false → t.st.gcuSocket x = u.gcuSocket x ∧
          ((u.ctx x).passed = true → last = true →
            t.st.ctx x = { u.ctx x with run := .done } ∧ t.st.incSocket x = (u.incSocket x).shut) ∧
          ((u.ctx x).passed = true → last = false →
            t.st.ctx x = u.ctx x ∧ t.st.incSocket x = u.incSocket x) ∧
          ((u.ctx x).failed = true →
            t.st.ctx x = (u.ctx x).leaves .failed ∧ t.st.incSocket x = (u.incSocket x).shut) ∧
          ((u.ctx x).run ≠ .stepDone → t.st.ctx x = u.ctx x ∧ t.st.incSocket x = u.incSocket x))) ∧
  (∀ (s : State) (rest : List StcMsg) (e : EndCause), s.Awake → Heard StcMsg.overtakes s.st.stc.inbox (.ended e) rest →
    let u := (s.st.stcLeft rest).beforeVoids fun _ => true
    let leaves := fun x => (u.ctx x).run == .joined || (u.ctx x).run == .done ||
      ((u.ctx x).run.stepping && (u.ctx x).run != .adjusting)
    Answers .stcRunEnded s fun t =>
      t.st = { u with
        stc := { u.stc with ctx := t.st.stc.ctx, runEnded := some e }
        lkc := { u.lkc with outbound := verdictsWithdrawn leaves u.lkc.outbound }
        inc := { u.inc with sockets := t.st.inc.sockets, inbox := t.st.inc.inbox }
        gcu := { u.gcu with sockets := t.st.gcu.sockets } } ∧
      u.LateEndsKept (fun x => (u.ctx x).run == .joining) t.st.inc.inbox ∧
      ∀ x,
        ((u.ctx x).run = .joining →
          t.st.ctx x = (u.ctx x).leaves (u.endOutCause x e) ∧ t.st.incSocket x = u.endedLate x) ∧
        (leaves x = true →
          t.st.ctx x = (u.ctx x).leaves (u.endOutCause x e) ∧ t.st.incSocket x = (u.incSocket x).shut ∧
            t.st.gcuSocket x = (u.gcuSocket x).voided) ∧
        (leaves x = false → t.st.gcuSocket x = u.gcuSocket x) ∧
        (((u.ctx x).run = .adjusting ∨ (u.ctx x).run = .idle ∨ (u.ctx x).run = .out ∨
            (u.ctx x).run = .sealed ∨ (u.ctx x).run.inSealing = true) →
          t.st.ctx x = u.ctx x ∧ t.st.incSocket x = (u.incSocket x).shut) ∧
        (t.st.incSocket x).state ≠ .inserting ∧ (t.st.incSocket x).state ≠ .inserted) ∧
  ∀ (st : Station) (x : Socket),
    let keepsFailed := (st.ctx x).failed = true ∧ (st.ownEntry x).out = some .failed
    (∀ c, (st.ownEntry x).out = some c → st.rosterCause x = c) ∧
    ((st.ownEntry x).out = none → (st.ownEntry x).state = .absent → st.rosterCause x = .late) ∧
    (keepsFailed → st.endOutCause x .aborted = .failed ∧ st.endOutCause x .fault = .failed) ∧
    (¬ keepsFailed → st.endOutCause x .aborted = .aborted ∧ st.endOutCause x .fault = .fault) ∧
    st.endOutCause x .complete = st.rosterCause x ∧ st.endOutCause x .noneLeft = st.rosterCause x

/-- A local bypass takes its stepping socket OUT and, unless it was shed, disturbs the others; a JOINED or named one goes OUT,
a JOINING one not yet named becomes IDLE, and when that was the last open outcome the station's JOIN is offered (that a bypass
can be it is the model's reading, log 17). The model's choices for that JOIN: the candidacy of a JOIN it replaces (log 37,
DESIGN CHOICE), an older deferred JOIN that stays waiting (log 40, DESIGN CHOICE) and bits 4..7 of its mask (log 45, DESIGN
CHOICE). The mute notice releases RDY for good. That a window which ended before is evaluated first, as WindowEndIsEvaluated
states beforeVoids, is log 18 (DEDUCED). The step's record is that of the STC's run, as LoadSetStartsItsSockets states it (log
15, DEDUCED). That the report of a closed run's fault acts on the run state it finds is the model's choice (log 51, DESIGN
CHOICE). -/
def Obligations.LocalBypassAndMuteAct : Prop :=
  (∀ (s : State) (x : Socket) (rest : List StcMsg) (c : OutCause), s.Awake →
    Heard StcMsg.overtakes s.st.stc.inbox (.bypass x c) rest →
    ((s.st.ctx x).run.stepping = true →
      let u := (s.st.stcLeft rest).beforeVoids fun y => y == x || c != .shed
      let voids := fun y => y == x || (c != .shed && (u.ctx y).run == .measuring)
      Answers (.localBypass x) s fun t =>
        t.st = { u with
          stc := { u.stc with ctx := t.st.stc.ctx }
          lkc := { u.lkc with outbound := u.verdictWithdrawn x }
          gcu := { u.gcu with sockets := t.st.gcu.sockets } } ∧
        t.st.ctx x = (u.ctx x).leaves c ∧
        (∀ y, t.st.gcuSocket y = if voids y then (u.gcuSocket y).voided else u.gcuSocket y) ∧
        ∀ y, y ≠ x →
          (c = .shed → t.st.ctx y = u.ctx y) ∧
          (c ≠ .shed → t.st.ctx y = (u.ctx y).disturbedBy u.curStep.settle)) ∧
    (((s.st.ctx x).run = .joined ∨
        ((s.st.ctx x).run = .joining ∧ s.st.stc.joinPlaced = true ∧ s.st.stc.joinedMask.get x = true)) →
      exec (.localBypass x) s = .next (s.upd fun st => (st.stcLeft rest).modCtx x fun k => k.leaves c)) ∧
    ((s.st.ctx x).run = .joining →
      ((s.st.stc.joinPlaced = true ∧ s.st.stc.joinedMask.get x = false) ∨ (s.st.stc.joinPlaced = false ∧
        ∃ y, y ≠ x ∧ (s.st.ctx y).run = .joining ∧ s.st.stc.joinedMask.get y = false)) →
      exec (.localBypass x) s = .next (s.upd fun st => { st with stc := { st.stc with
        inbox := rest, joinedMask := st.stc.joinedMask.set x false
        ctx := st.stc.ctx.set x { st.ctx x with run := .idle } } })) ∧
    ((s.st.ctx x).run = .joining → s.st.stc.joinPlaced = false →
      (∀ y, y ≠ x → (s.st.ctx y).run = .joining → s.st.stc.joinedMask.get y = true) →
      let joined := fun y => y != x && s.st.stc.joinedMask.get y && decide ((s.st.incSocket y).joinFault = .none)
      Answers (.localBypass x) s fun t =>
        t.st = { s.st with
          stc := { s.st.stc with
            inbox := rest, joinPlaced := true, joinedMask := .tabulate joined
            ctx := s.st.stc.ctx.set x { s.st.ctx x with run := .idle } }
          lkc := t.st.lkc } ∧
        s.st.lkc.TakesJoin t.st.lkc (s.st.joinFor joined s.st.stc.classes)) ∧
    (((s.st.ctx x).run = .idle ∨ (s.st.ctx x).run = .out ∨ (s.st.ctx x).run = .done ∨ (s.st.ctx x).run = .sealed ∨
        (s.st.ctx x).run.inSealing = true) →
      exec (.localBypass x) s = .next (s.upd fun st => st.stcLeft rest))) ∧
  ∀ (s : State) (rest : List StcMsg), s.Awake → Heard StcMsg.overtakes s.st.stc.inbox .mute rest →
    Answers .muteNotice s fun t =>
      t.st = { s.st with stc := { s.st.stc with inbox := rest, muted := true } } ∧ t.st.rdyPull = false

/-! ### The Gate Counter Unit (chapter 4) -/

/-- A reference pulse raises the running count; a meter pulse goes to the window of the socket the remap ties to its position,
and is ignored while that socket is disabled or masked. -/
def Obligations.PulsesDriveTheWindows : Prop :=
  (∀ s : State, s.Awake →
    exec .refPulse s = .next (s.upd fun st => { st with gcu := { st.gcu with refCount := st.gcu.refCount + 1 } })) ∧
  (∀ (s : State) (p : Position), s.Awake →
    (∀ x, s.st.socketAt p = some x → s.st.enabled x = false ∨ s.st.masked x = true) →
    exec (.meterPulse p) s = .next s) ∧
  ∀ (s : State) (p : Position) (x : Socket), s.Awake → s.st.socketAt p = some x → s.st.enabled x = true →
    s.st.masked x = false →
    let now := s.st.gcu.refCount
    let timed := fun v n => exec (.meterPulse p) s = .next (s.upd fun st => { st with
      gcu := { st.gcu with sockets := st.gcu.sockets.set x { st.gcuSocket x with window := .none } }
      stc := { st.stc with inbox := st.stc.inbox ++ [.timedEnd x v n] } })
    ((s.st.gcuSocket x).window = .none → exec (.meterPulse p) s = .next s) ∧
    (∀ q t, (s.st.gcuSocket x).window = .accuracy q none t →
      exec (.meterPulse p) s = .next (s.upd fun st => st.modGcu x fun g =>
        { g with window := .accuracy q (some { number := 1, pulses := 0, openedAt := now }) t })) ∧
    (∀ q g t, (s.st.gcuSocket x).window = .accuracy q (some g) t →
      let l := (s.st.gcuSocket x).samples ++ [gateSample q g.number (now - g.openedAt)]
      (g.pulses + 1 < q.n → exec (.meterPulse p) s = .next (s.upd fun st => st.modGcu x fun h =>
        { h with window := .accuracy q (some { g with pulses := g.pulses + 1 }) t })) ∧
      (q.n ≤ g.pulses + 1 → g.number < q.s → exec (.meterPulse p) s = .next (s.upd fun st => st.modGcu x fun h =>
        { h with
          samples := l
          window := .accuracy q (some { number := g.number + 1, pulses := 0, openedAt := now }) q.timeoutMs })) ∧
      (q.n ≤ g.pulses + 1 → q.s ≤ g.number → exec (.meterPulse p) s = .next (s.upd fun st => { st with
        gcu := { st.gcu with sockets := st.gcu.sockets.set x { st.gcuSocket x with window := .none, samples := l } }
        stc := { st.stc with inbox := st.stc.inbox ++ [.accuracyEnd x
          { timedOut := false, samples := l, mean := meanOf (okErrors l), spread := spreadOf (okErrors l) }] } }))) ∧
    (∀ w t, (s.st.gcuSocket x).window = .creep w t 0 →
      exec (.meterPulse p) s = .next (s.upd fun st => st.modGcu x fun g => { g with window := .creep w t 1 })) ∧
    (∀ w t n, (s.st.gcuSocket x).window = .creep w t (n + 1) → timed (.fail .creep) 2) ∧
    ∀ w t n, (s.st.gcuSocket x).window = .start w t n → timed .pass 1

/-- The error of a gate is 10^6 (N Kr - C Km) / (C Km), rounded to the nearest integer, half away from zero; a zero count or
an error outside -999999..999999 gives OVER_RANGE at the bound. -/
def Obligations.GateErrorIsRounded : Prop :=
  ∀ (q : GateParams) (n : Nat) (c : W32),
    let den : Int := (c.toNat * q.km : Nat)
    let num : Int := 1000000 * ((q.n * q.kr : Nat) - den)
    let a := gateSample q n c
    a.gate = n ∧ a.count = some c ∧
      (den = 0 → a.status = .overRange ∧ a.error = 999999) ∧
      (0 < den → ∀ e : Int,
        RoundsTo num den e →
        (e.natAbs ≤ 999999 → a.status = .ok ∧ a.error = e) ∧
          (999999 < e → a.status = .overRange ∧ a.error = 999999) ∧
          (e < -999999 → a.status = .overRange ∧ a.error = -999999))

/-- A gate timeout ends the accuracy window with a NO_PULSE sample, and does nothing when the timer has been restarted for the
next gate; the creep and start windows end at their timers with their verdicts. An expiry that finds no window does nothing.
The mean and the spread of a report are those of R103: the sum of the OK errors over their number, rounded half away from zero,
and the largest less the smallest; both 0 with no OK sample. That a timer which has run out stands at 1 until its expiry comes is the model's choice (log 2, DESIGN CHOICE). -/
def Obligations.WindowTimersReport : Prop :=
  (∀ l : List Sample,
    let errors := (l.filter fun a => a.status == .ok).map Sample.error
    okErrors l = errors ∧
    (errors = [] → meanOf errors = 0 ∧ spreadOf errors = 0) ∧
    (∀ m : Int, errors ≠ [] → RoundsTo errors.sum errors.length m → meanOf errors = m) ∧
    ∀ low high, low ∈ errors → high ∈ errors → (∀ e ∈ errors, low ≤ e ∧ e ≤ high) →
      (spreadOf errors : Int) = high - low) ∧
  ∀ (s : State) (x : Socket), s.Awake →
    let timed := fun c v n => exec c s = .next (s.upd fun st => { st with
      gcu := { st.gcu with sockets := st.gcu.sockets.set x { st.gcuSocket x with window := .none } }
      stc := { st.stc with inbox := st.stc.inbox ++ [.timedEnd x v n] } })
    (∀ q g t, (s.st.gcuSocket x).window = .accuracy q g t →
      let number := match g with | some h => h.number | none => 1
      let l := (s.st.gcuSocket x).samples ++ [{ gate := number, count := none, error := 0, status := .noPulse }]
      (t ≤ 1 → exec (.gateTimeout x) s = .next (s.upd fun st => { st with
        gcu := { st.gcu with sockets := st.gcu.sockets.set x { st.gcuSocket x with window := .none, samples := l } }
        stc := { st.stc with inbox := st.stc.inbox ++ [.accuracyEnd x
          { timedOut := true, samples := l, mean := meanOf (okErrors l), spread := spreadOf (okErrors l) }] } })) ∧
      (1 < t → exec (.gateTimeout x) s = .next s)) ∧
    (∀ w t n, (s.st.gcuSocket x).window = .creep w t n → timed (.creepWindowTimer x) .pass n) ∧
    (∀ w t n, (s.st.gcuSocket x).window = .start w t n → timed (.startWindowTimer x) (.fail .noStart) n) ∧
    ((s.st.gcuSocket x).window = .none → exec (.gateTimeout x) s = .next s ∧ exec (.creepWindowTimer x) s = .next s ∧
      exec (.startWindowTimer x) s = .next s)

/-- The end of a write burst starts the socket's pulse mask, or starts it again, so that it ends 500 ms after the burst: what
is left of it runs down from the burst's end (ExchangesEndBursts has the 500), before the GCU takes the report and after. Its
end is reported, and an end that finds the mask started again does nothing. A run-opened notice drops windows and samples and
leaves masks and counts. That a mask which has run out stands at 1 until its end comes is the model's choice (log 2, DESIGN
CHOICE). That a window the STC, running ahead, has already opened in the new run is dropped too is the model's choice (log 50,
DESIGN CHOICE). -/
def Obligations.MaskFollowsWriteBursts : Prop :=
  (∀ (s : State) (x : Socket) (left : Nat) (rest : List GcuMsg), s.Awake →
    Heard GcuMsg.overtakes s.st.gcu.inbox (.writeBurstEnd x left) rest →
    exec (.writeBurstEnd x) s = .next (s.upd fun st => (st.gcuLeft rest).modGcu x fun g => { g with mask := some left })) ∧
  (∀ (st : Station) (x : Socket), (st.tick.gcuSocket x).mask = (st.gcuSocket x).mask.map (fun n => max 1 (n - 1)) ∧
    st.tick.gcu.inbox = st.gcu.inbox.map fun m => match m with
      | .writeBurstEnd y n => .writeBurstEnd y (max 1 (n - 1))
      | .runOpened h => .runOpened h) ∧
  (∀ (s : State) (x : Socket) (n : Nat), s.Awake → (s.st.gcuSocket x).mask = some n →
    (n ≤ 1 → (∀ k, .writeBurstEnd x k ∉ s.st.gcu.inbox) →
      exec (.pulseMaskEnd x) s = .next (s.upd fun st => { st with
        gcu := { st.gcu with sockets := st.gcu.sockets.set x { st.gcuSocket x with mask := none } }
        stc := { st.stc with inbox := st.stc.inbox ++ [.maskEnd x] } })) ∧
    ((1 < n ∨ ∃ k, .writeBurstEnd x k ∈ s.st.gcu.inbox) → exec (.pulseMaskEnd x) s = .next s)) ∧
  ∀ (s : State) (h : RunHeader) (rest : List GcuMsg), s.Awake →
    Heard GcuMsg.overtakes s.st.gcu.inbox (.runOpened h) rest →
    exec .gcuRunOpened s = .next (s.upd fun st => { st with gcu := { st.gcu with
      inbox := rest, sockets := st.gcu.sockets.map fun g => { g with window := .none, samples := [] } } })

/-! ### The Insertion Controller (chapter 5) -/

/-- Probe cycles start at the end of start-up and when idle; the resistance measured at the socket's position gives the detect
class; a valid one is classified by IDENT, whose replies are judged in order. The run's end starts idle probing. The model's
choices: the PROBE burst gets the next burst number and waits as a request in the port's inbox (log 20, DESIGN CHOICE), and
idle probing is a flag that start-up's end and the run's end set (log 22, DESIGN CHOICE). -/
def Obligations.ProbeCyclesRun : Prop :=
  (∀ (s : State) (rest : List IncMsg), s.Awake → Heard IncMsg.overtakes s.st.inc.inbox .startUpEnd rest →
    exec .incStartUpEnd s = .next (s.upd fun st => { st with inc := { st.inc with
      inbox := rest, idle := true
      sockets := .tabulate fun x =>
        if st.enabled x = true ∧ (st.incSocket x).state = .bypassed then (st.incSocket x).probes
        else st.incSocket x } })) ∧
  (∀ (s : State) (x : Socket), s.st.cfl.stage = .running → s.st.inc.idle = true →
    (s.st.bmr.phase = .closed ∨ s.st.bmr.phase = .ended) → s.st.enabled x = true → (s.st.incSocket x).state = .bypassed →
    exec (.idleProbeStart x) s = .next (s.upd fun st => st.modInc x IncSocket.probes)) ∧
  (∀ (s : State) (a : Position) (x : Socket) (r n : Nat) (p : Profile), s.Awake → s.st.socketAt a = some x →
    (s.st.incSocket x).cycle = .detect n → s.st.profile x = some p →
    (∀ d, ((p.rhi < r ∧ d = DetectClass.none) ∨ (r ≤ p.rhi ∧ r < p.rlo ∧ d = .short)) →
      (s.st.incSocket x).join ≠ .waitCycle → (s.st.incSocket x).join ≠ .freshCycle →
      exec (.detectEnd a r) s = .next (s.upd fun st => st.modInc x fun i =>
        i.probed { detect := d, ident := none, meter := none, age := 0 })) ∧
    (p.rlo ≤ r → r ≤ p.rhi →
      exec (.detectEnd a r) s = .next (s.upd fun st => { st with
        inc := { st.inc with
          sockets := st.inc.sockets.set x { st.incSocket x with cycle := .classify st.mpc.nextBurst } }
        mpc := st.burstAsked x .probe .ident (if p.confirm then [.ident] else []) }))) ∧
  (∀ (s : State) (x : Socket) (rest : List IncMsg) (r : BurstReport) (p : Profile), s.Awake →
    Heard IncMsg.overtakes s.st.inc.inbox (.probeEnd x r) rest → (s.st.incSocket x).cycle = .classify r.id →
    s.st.profile x = some p → (s.st.incSocket x).join ≠ .waitCycle → (s.st.incSocket x).join ≠ .freshCycle →
    ∀ o m, p.Identifies r o m →
      exec (.probeBurstEnd x) s = .next (s.upd fun st => (st.incLeft rest).modInc x fun i =>
        i.probed { detect := .valid, ident := some o, meter := m, age := 0 })) ∧
  ∀ (s : State) (e : EndCause) (rest : List IncMsg), s.Awake → Heard IncMsg.overtakes s.st.inc.inbox (.ended e) rest →
    exec .incRunEnded s = .next (s.upd fun st => { st with inc := { st.inc with inbox := rest, idle := true } })

/-- The join sequence of R119 to R123: its start by insertion state, the insertion with its window and its fault, the preset
and its outcome, the cool-down or the cycle it waits for, and the join faults of R121 by the probe result of its fresh cycle.
A probe result with the ident outcome OK and no meter, which no probe cycle leaves, gives IDENT_FAIL (log 31). At the
run-opened notice a join whose late end the STC has already asked for does not begin, and its fault is LATE (R70; that the
late end waits with the notice is log 48, DEDUCED). The outcome of an ended join's preset changes nothing, also where the next
join waits for its own (R123, R146); the numbers that tell the two apart are the model's (log 20, DESIGN CHOICE). -/
def Obligations.JoinSequenceRuns : Prop :=
  (∀ (s : State) (h : RunHeader) (late : Quad Bool) (rest : List IncMsg), s.Awake →
    s.st.inc.inbox = .runOpened h late :: rest →
    let unnamed := fun x => s.st.enabled x && !late.get x && decide ((s.st.incSocket x).state = .bypassed) &&
      (s.st.incSocket x).probe.any fun r =>
        r.detect == .valid && r.ident == some .ok && decide (r.age ≤ 1000) && r.meter.isNone
    Answers .incRunOpened s fun t =>
      t.st = { s.st with
        inc := { s.st.inc with inbox := rest, idle := false, sockets := t.st.inc.sockets }
        stc := { s.st.stc with
          inbox := s.st.stc.inbox ++ (([0, 1, 2, 3] : List Socket).filter unnamed).map fun x =>
            .joinOutcome x (.fault .identFail) } } ∧
      ∀ x,
        let i := { s.st.incSocket x with joinFault := .none, deferred := none }
        (s.st.enabled x = false →
          t.st.incSocket x = { s.st.incSocket x with joinFault := .disabled, deferred := none }) ∧
        (s.st.enabled x = true → late.get x = true → t.st.incSocket x = { i with join := .none, joinFault := .late }) ∧
        (s.st.enabled x = true → late.get x = false →
          (i.state = .cooling → t.st.incSocket x = { i with join := .waitCool }) ∧
          (i.state = .probing → t.st.incSocket x = { i with join := .waitCycle }) ∧
          (∀ r m, i.state = .bypassed → i.probe = some r → r.detect = .valid → r.ident = some .ok → r.age ≤ 1000 →
            r.meter = some m →
            t.st.incSocket x = i.inserts s.st.insertionMs m) ∧
          (unnamed x = true → t.st.incSocket x = { i with join := .none, joinFault := .identFail }) ∧
          (i.state = .bypassed →
            (∀ r, i.probe = some r → r.detect ≠ .valid ∨ r.ident ≠ some .ok ∨ 1000 < r.age) →
            t.st.incSocket x = { i.probes with join := .freshCycle }))) ∧
  (∀ (s : State) (p : Position) (x : Socket), s.Awake → s.st.socketAt p = some x →
    (s.st.incSocket x).state = .inserting →
    exec (.insertionSenseAboveVopen p) s = .next (s.upd fun st => { st with
      inc := { st.inc with
        sockets := st.inc.sockets.set x { (st.incSocket x).cooled with joinFault := .insertFail } }
      stc := { st.stc with inbox := st.stc.inbox ++ [.joinOutcome x (.fault .insertFail)] } }) ∧
    exec (.insertionWindowEnd x) s = .next (s.upd fun st => { st with
      inc := { st.inc with
        nextPreset := st.inc.nextPreset + 1
        sockets := st.inc.sockets.set x { st.incSocket x with
          state := .inserted, window := none, join := .preset st.inc.nextPreset, overburden := .zero
          openCircuit := .zero } }
      cru := { st.cru with inbox := st.cru.inbox ++ [.presetRequest x st.inc.nextPreset] } })) ∧
  (∀ (s : State) (x : Socket) (rest : List IncMsg) (n : Nat) (ok : Bool), s.Awake →
    Heard IncMsg.overtakes s.st.inc.inbox (.presetOutcome x n ok) rest →
    ((s.st.incSocket x).state ≠ .inserted ∨ (s.st.incSocket x).join ≠ .preset n →
      exec (.presetOutcome x) s = .next (s.upd fun st => st.incLeft rest)) ∧
    ((s.st.incSocket x).state = .inserted → (s.st.incSocket x).join = .preset n →
      (ok = true → exec (.presetOutcome x) s = .next (s.upd fun st => { st with
        inc := { st.inc with
          inbox := rest, sockets := st.inc.sockets.set x { st.incSocket x with join := .none, joinFault := .none } }
        stc := { st.stc with inbox := st.stc.inbox ++ [.joinOutcome x (.joined (st.incSocket x).joinClass)] } })) ∧
      (ok = false → exec (.presetOutcome x) s = .next (s.upd fun st => { st with
        inc := { st.inc with
          inbox := rest, sockets := st.inc.sockets.set x { (st.incSocket x).shut with joinFault := .presetFail } }
        stc := { st.stc with inbox := st.stc.inbox ++ [.joinOutcome x (.fault .presetFail)] } })))) ∧
  (∀ (s : State) (a : Position) (x : Socket) (r n : Nat) (p : Profile) (d : DetectClass), s.Awake →
    s.st.socketAt a = some x → (s.st.incSocket x).cycle = .detect n → s.st.profile x = some p →
    ((p.rhi < r ∧ d = .none) ∨ (r ≤ p.rhi ∧ r < p.rlo ∧ d = .short)) →
    let q : ProbeResult := { detect := d, ident := none, meter := none, age := 0 }
    ((s.st.incSocket x).join = .freshCycle →
      exec (.detectEnd a r) s = .next (s.upd fun st => { st with
        inc := { st.inc with
          sockets := st.inc.sockets.set x { (st.incSocket x).probed q with join := .none, joinFault := .noMeter } }
        stc := { st.stc with inbox := st.stc.inbox ++ [.joinOutcome x (.fault .noMeter)] } })) ∧
    ((s.st.incSocket x).join = .waitCycle →
      exec (.detectEnd a r) s = .next (s.upd fun st => st.modInc x fun i =>
        { (i.probed q).probes with join := .freshCycle }))) ∧
  (∀ (s : State) (x : Socket) (rest : List IncMsg) (r : BurstReport) (p : Profile) (o : IdentOutcome)
    (m : Option MeterId), s.Awake → Heard IncMsg.overtakes s.st.inc.inbox (.probeEnd x r) rest →
    (s.st.incSocket x).cycle = .classify r.id → s.st.profile x = some p → p.Identifies r o m →
    let q : ProbeResult := { detect := .valid, ident := some o, meter := m, age := 0 }
    let faults := fun c : JoinFault => exec (.probeBurstEnd x) s = .next (s.upd fun st => { st with
      inc := { st.inc with
        inbox := rest
        sockets := st.inc.sockets.set x { (st.incSocket x).probed q with join := .none, joinFault := c } }
      stc := { st.stc with inbox := st.stc.inbox ++ [.joinOutcome x (.fault c)] } })
    ((s.st.incSocket x).join = .freshCycle →
      (o = .fail → faults .identFail) ∧ (o = .mismatch → faults .identMismatch) ∧ (o = .locked → faults .meterLocked) ∧
        (o = .classMismatch → faults .profileMismatch)) ∧
    ((s.st.incSocket x).join = .waitCycle → o ≠ .ok →
      exec (.probeBurstEnd x) s = .next (s.upd fun st => (st.incLeft rest).modInc x fun i =>
        { (i.probed q).probes with join := .freshCycle })) ∧
    (((s.st.incSocket x).join = .freshCycle ∨ (s.st.incSocket x).join = .waitCycle) → o = .ok → ∀ id, m = some id →
      exec (.probeBurstEnd x) s = .next (s.upd fun st => (st.incLeft rest).modInc x fun i =>
        (i.probed q).inserts st.insertionMs id))) ∧
  ∀ (s : State) (x : Socket), s.Awake → (s.st.incSocket x).state = .cooling →
    ((s.st.incSocket x).join ≠ .waitCool →
      exec (.coolDownEnd x) s = .next (s.upd fun st => st.modInc x fun i =>
        { i with state := .bypassed, coolDown := none })) ∧
    ((s.st.incSocket x).join = .waitCool → Station.usableProbe (s.st.incSocket x).probe = false →
      exec (.coolDownEnd x) s = .next (s.upd fun st => st.modInc x fun i =>
        { i.probes with coolDown := none, join := .freshCycle })) ∧
    ∀ r m, (s.st.incSocket x).join = .waitCool → (s.st.incSocket x).probe = some r → r.detect = .valid →
      r.ident = some .ok → r.age ≤ 1000 → r.meter = some m →
      exec (.coolDownEnd x) s = .next (s.upd fun st => st.modInc x fun i =>
        { i with coolDown := none }.inserts st.insertionMs m)

/-- A supervision timer at its limit closes the shunt, starts the cool-down, counts the fault, withdraws the VERDICT, tells
the STC and places the BYPASS by R127. Timers rise with the sense of their position and fall by 1 when the sub-count completes
16 ms below the level; a shed takes its sockets one by one: the shunt closes, a VERDICT is withdrawn, the STC is told and the
BYPASS is placed. That the 16th millisecond comes as the command, with the sub-count at 15, is the model's choice (log 2,
DESIGN CHOICE), and that a timer at its limit does not fall is DEDUCED (log 23). That the run state read is the STC's as it
stands, also where the INC is at another run than the STC, and that a state R127 gives no row places no BYPASS, is the model's
choice (log 52, DESIGN CHOICE), and so is the BYPASS of a failed verification that is taken after a next run has opened (log
51, DESIGN CHOICE). -/
def Obligations.SupervisionAndShedBypass : Prop :=
  (∀ (s : State) (x : Socket) (w : SupTimer), s.Awake → (s.st.incSocket x).state = .inserted →
    (Station.supTimer (s.st.incSocket x) w).count = s.st.supLimit w →
    let cause := match w with | .overburden => OutCause.overburden | .openCircuit => .openCircuit
    let up := fun n => if n < 255 then n + 1 else n
    let i := match w with
      | .overburden => { (s.st.incSocket x).cooled with overburdenFaults := up (s.st.incSocket x).overburdenFaults }
      | .openCircuit => { (s.st.incSocket x).cooled with openFaults := up (s.st.incSocket x).openFaults }
    let t := fun (j : IncSocket) (q : List OutEntry) => exec (.supervisionTimerLimit x w) s =
      .next (s.upd fun st => { st with
        inc := { st.inc with sockets := st.inc.sockets.set x j }
        stc := { st.stc with inbox := st.stc.inbox ++ [.bypass x cause] }
        lkc := { st.lkc with outbound := q } })
    let q := s.st.verdictWithdrawn x
    let r := (s.st.ctx x).run
    ((r.stepping = true ∨ r = .joined) →
      t i (s.st.bypassPlaced q x cause)) ∧
    (r = .joining → s.st.stc.joinPlaced = true → t { i with deferred := some cause } q) ∧
    (r = .joining → s.st.stc.joinPlaced = false →
      t { i with joinFault := if i.joinFault = .none then .insertFail else i.joinFault } q) ∧
    (r.stepping = false → r ≠ .joined → r ≠ .joining → t i q)) ∧
  (∀ (s : State) (p : Position) (x : Socket), s.Awake → s.st.socketAt p = some x → (s.st.incSocket x).state = .inserted →
    let up := fun (n : Nat) (v : Supervision) => { count := min n (v.count + 1), decay := 0, above := true : Supervision }
    exec (.supervisionTimerRise p .overburden) s = .next (s.upd fun st => st.modInc x fun i =>
      { i with overburden := up (st.supLimit .overburden) i.overburden }) ∧
    exec (.supervisionTimerRise p .openCircuit) s = .next (s.upd fun st => st.modInc x fun i =>
      { i with
        overburden := up (st.supLimit .overburden) i.overburden
        openCircuit := up (st.supLimit .openCircuit) i.openCircuit })) ∧
  (∀ (s : State) (x : Socket), s.Awake → (s.st.incSocket x).state = .inserted →
    let due := fun (n : Nat) (v : Supervision) => v.above = false ∧ v.decay = 15 ∧ v.count ≠ n
    let i := s.st.incSocket x
    (due (s.st.supLimit .overburden) i.overburden →
      exec (.supervisionTimerDecay x .overburden) s = .next (s.upd fun st => st.modInc x fun i =>
        { i with overburden := { i.overburden with count := i.overburden.count - 1, decay := 0 } })) ∧
    (¬ due (s.st.supLimit .overburden) i.overburden → exec (.supervisionTimerDecay x .overburden) s = .next s) ∧
    (due (s.st.supLimit .openCircuit) i.openCircuit →
      exec (.supervisionTimerDecay x .openCircuit) s = .next (s.upd fun st => st.modInc x fun i =>
        { i with openCircuit := { i.openCircuit with count := i.openCircuit.count - 1, decay := 0 } })) ∧
    (¬ due (s.st.supLimit .openCircuit) i.openCircuit → exec (.supervisionTimerDecay x .openCircuit) s = .next s)) ∧
  (∀ (s : State) (rest : List IncMsg) (l : Nat), s.Awake → Heard IncMsg.overtakes s.st.inc.inbox (.shed l) rest →
    let takes := fun x => s.st.enabled x && decide (l ≤ s.st.shedRank x) && (s.st.incSocket x).state == .inserted &&
      (s.st.ctx x).run.stepping
    let taken := ([0, 1, 2, 3] : List Socket).filter takes
    Answers .incShed s fun t =>
      t.st = { s.st with
        inc := { s.st.inc with inbox := rest, sockets := t.st.inc.sockets }
        stc := { s.st.stc with inbox := s.st.stc.inbox ++ taken.map fun x => .bypass x .shed }
        lkc := { s.st.lkc with
          outbound := taken.foldl (fun q x => s.st.bypassPlaced (verdictsWithdrawn (· == x) q) x .shed)
            s.st.lkc.outbound } } ∧
      ∀ x, t.st.incSocket x = if takes x then (s.st.incSocket x).shut else s.st.incSocket x) ∧
  ∀ (s : State) (x : Socket) (rest : List IncMsg), s.Awake → Heard IncMsg.overtakes s.st.inc.inbox (.verifyFail x) rest →
    exec (.verifyFailReport x) s = .next (s.upd fun st => { st with
      inc := { st.inc with inbox := rest }, lkc := { st.lkc with outbound := st.bypassPlaced st.lkc.outbound x .verifyFail } })

/-! ### The Correction Unit (chapter 6) -/

/-- What the CRU does with a request. A preset request fails when a channel in use is missing from the meter or a FIXED preset
lies outside its bounds, succeeds at once when it has no order, and else asks for the PRESET burst of its channels. A
correction fails SVC_FAIL with no current value and ADJ_LIMIT when its value lies outside the bounds, and else asks for the
ADJUST burst. A verification with no marked channel is answered at once, and else asks for a VERIFY burst of the marked ones.
That an asked burst gets the next burst number and waits as a request in the port's inbox, and that a preset request has a
number its outcome carries, is the model's choice (log 20, DESIGN CHOICE); that a closed run's request which a CRU at the next
run takes is taken by the tables it finds is too (log 51, DESIGN CHOICE). -/
def Obligations.RequestsBuildTheirBursts : Prop :=
  (∀ (s : State) (x : Socket) (rest : List CruMsg) (n : Nat) (q : Quad ChannelRec), s.Awake →
    Heard CruMsg.overtakes s.st.cru.inbox (.presetRequest x n) rest → (s.st.cruSocket x).table = some q →
    let bad := ∃ c : Channel, ((q.get c).mode ≠ .off ∧ (s.st.incSocket x).joinPresence.get c = false) ∨
      ((q.get c).mode = .fixed ∧ ((q.get c).preset < (q.get c).min ∨ (q.get c).max < (q.get c).preset))
    let orders := ([0, 1, 2, 3] : List Channel).flatMap fun c =>
      match (q.get c).mode with
      | .off => []
      | .fixed => Order.writeCh c (q.get c).preset :: if s.st.verifyWrites then [.readCh c] else []
      | .auto => [.readCh c]
      | .once => [.readCh c]
    let answers := fun ok => exec (.presetRequest x) s = .next (s.upd fun st => { st with
      cru := { st.cru with inbox := rest }, inc := { st.inc with inbox := st.inc.inbox ++ [.presetOutcome x n ok] } })
    (bad → answers false) ∧ (¬ bad → orders = [] → answers true) ∧
    ∀ o os, ¬ bad → orders = o :: os →
      exec (.presetRequest x) s = .next (s.upd fun st => { st with
        cru := { st.cru with
          inbox := rest
          sockets := st.cru.sockets.set x { st.cruSocket x with request := .preset st.mpc.nextBurst n } }
        mpc := st.burstAsked x .preset o os })) ∧
  (∀ (s : State) (x : Socket) (rest : List CruMsg) (c : Channel) (mean : Int) (q : Quad ChannelRec), s.Awake →
    Heard CruMsg.overtakes s.st.cru.inbox (.correction x c mean) rest → (s.st.cruSocket x).table = some q →
    let n := roundHalfAway (-mean) (q.get c).sensitivity
    let counts := if n = 0 then (if 0 < mean then -1 else 1) else n
    let answers := fun o => exec (.correctionRequest x) s = .next (s.upd fun st => { st with
      cru := { st.cru with inbox := rest }, stc := { st.stc with inbox := st.stc.inbox ++ [.adjusted x o] } })
    ((q.get c).current = none → answers .svcFail) ∧
    ∀ cur, (q.get c).current = some cur →
      ((cur + counts < (q.get c).min ∨ (q.get c).max < cur + counts) → answers .adjLimit) ∧
      ((q.get c).min ≤ cur + counts → cur + counts ≤ (q.get c).max →
        exec (.correctionRequest x) s = .next (s.upd fun st => { st with
          cru := { st.cru with
            inbox := rest
            sockets := st.cru.sockets.set x
              { st.cruSocket x with request := .adjust st.mpc.nextBurst c (cur + counts) } }
          mpc := st.burstAsked x .adjust (.writeCh c (cur + counts)) (if st.verifyWrites then [.readCh c] else []) }))) ∧
  ∀ (s : State) (x : Socket) (rest : List CruMsg) (q : Quad ChannelRec), s.Awake →
    Heard CruMsg.overtakes s.st.cru.inbox (.verifyRequest x) rest → (s.st.cruSocket x).table = some q →
    ((∀ c : Channel, (q.get c).mark = false) →
      exec (.verificationRequest x) s = .next (s.upd fun st => { st with
        cru := { st.cru with inbox := rest }
        slu := { st.slu with inbox := st.slu.inbox ++ [.verification x true st.bmr.phase] } })) ∧
    ∀ c cs, ([0, 1, 2, 3].filter fun c : Channel => (q.get c).mark) = c :: cs →
      exec (.verificationRequest x) s = .next (s.upd fun st => { st with
        cru := { st.cru with
          inbox := rest
          sockets := st.cru.sockets.set x { st.cruSocket x with request := .verify st.mpc.nextBurst } }
        mpc := st.burstAsked x .verify (.readCh c) (cs.map .readCh) })

/-- The end of the CRU's own burst updates the channel records and answers its requester: after a PRESET burst each channel as
its records make it one after another, and the burst agrees when every read that follows a write of its channel returned the
value written; the run-opened notice rebuilds every table and drops the requests. The model's choices: the records a burst cut
short has act in order (log 32, DEDUCED), at run opened a withdrawal is sent for every outstanding request, and a preset
outcome carries the number of its request (log 20, DESIGN CHOICE). -/
def Obligations.BurstEndsUpdateTheTable : Prop :=
  (∀ (s : State) (x : Socket) (rest : List CruMsg) (r : BurstReport) (q : Quad ChannelRec), s.Awake →
    Heard CruMsg.overtakes s.st.cru.inbox (.burstEnd x r) rest → (s.st.cruSocket x).table = some q →
    let ends := fun c (q2 : Quad ChannelRec) (tell : Station → Station) => exec c s = .next (s.upd fun st => tell { st with
      cru := { st.cru with inbox := rest, sockets := st.cru.sockets.set x { table := some q2, request := .none } } })
    (∀ n, r.kind = .preset → (s.st.cruSocket x).request = .preset r.id n →
      ∃ q2, ends (.presetBurstEnd x) q2 (fun st => st.tellInc (.presetOutcome x n
          (decide (r.result = .ok) && readbacksAgree r.records))) ∧
        (∀ c, q2.get c = r.records.foldl (ChannelRec.presetBy c) (q.get c)) ∧
        (readbacksAgree r.records = true ↔ ∀ pre a b post c v w, r.records = pre ++ a :: b :: post →
          a.order = .writeCh c v → b.order = .readCh c → b.reply = some (.readCh w) → v = w) ∧
        (∀ c v, r.records = [{ order := .writeCh c v, outcome := .ok, reply := some .writeCh }] →
          q2 = q.set c { q.get c with current := some v, mark := true }) ∧
        (∀ c v, r.records = [{ order := .readCh c, outcome := .ok, reply := some (.readCh v) }] →
          q2 = q.set c { q.get c with current := some v, mark := false }) ∧
        (∀ c v o, o ≠ .ok → r.records = [{ order := .writeCh c v, outcome := o, reply := none }] →
          q2 = q.set c { q.get c with current := none, mark := false }) ∧
        (∀ c o, o ≠ .ok → r.records = [{ order := .readCh c, outcome := o, reply := none }] → q2 = q) ∧
        ∀ c v w, r.records = [{ order := .writeCh c v, outcome := .ok, reply := some .writeCh },
            { order := .readCh c, outcome := .ok, reply := some (.readCh w) }] →
          q2 = q.set c { q.get c with current := some w, mark := false } ∧ readbacksAgree r.records = (v == w)) ∧
    (∀ c v, r.kind = .adjust → (s.st.cruSocket x).request = .adjust r.id c v →
      let set := fun (f : ChannelRec → ChannelRec) o =>
        ends (.adjustBurstEnd x) (q.set c (f (q.get c))) fun st => st.tellStc (.adjusted x o)
      let kept := fun (k : ChannelRec) => if k.mode = .once then { k with mode := .fixed, preset := v } else k
      ∀ w l, r.records = w :: l →
        (w.outcome = .locked → set id .locked) ∧
        ((w.outcome = .refused ∨ w.outcome = .badOrder ∨ w.outcome = .badCheck) → set id .svcFail) ∧
        ((w.outcome = .timeout ∨ w.outcome = .badReply) →
          set (fun k => { k with current := none, mark := false }) .svcFail) ∧
        (w.outcome = .ok →
          (l = [] → set (fun k => kept { k with current := some v, mark := true }) .ok) ∧
          ∀ b, l = [b] →
            (b.outcome = .locked → set (fun k => { k with current := some v, mark := true }) .locked) ∧
            (b.outcome ≠ .locked → b.reply = some (.readCh v) →
              set (fun k => kept { k with current := some v, mark := false }) .ok) ∧
            (∀ u, b.outcome ≠ .locked → b.reply = some (.readCh u) → u ≠ v →
              set (fun k => { k with current := some u, mark := false }) .svcFail) ∧
            (b.outcome ≠ .locked → (∀ u, b.reply ≠ some (.readCh u)) →
              set (fun k => { k with current := some v, mark := true }) .svcFail))) ∧
    (r.kind = .verify → (s.st.cruSocket x).request = .verify r.id →
      let ok := r.result = .ok ∧ ∀ a ∈ r.records, ∃ c v, a.order = .readCh c ∧ a.reply = some (.readCh v) ∧
        (q.get c).current = some v
      ∃ q2,
        (ok → ends (.verifyBurstEnd x) q2 fun st => st.tellSlu (.verification x true st.bmr.phase)) ∧
        (¬ ok → s.st.bmr.phase = .sealing →
          ends (.verifyBurstEnd x) q2 fun st => (st.tellSlu (.verification x false .sealing)).tellInc (.verifyFail x)) ∧
        (¬ ok → s.st.bmr.phase ≠ .sealing →
          ends (.verifyBurstEnd x) q2 fun st => st.tellSlu (.verification x false st.bmr.phase)) ∧
        (∀ c, (∀ a ∈ r.records, a.order ≠ .readCh c) → q2.get c = q.get c) ∧
        (∀ c v pre a post, r.records = pre ++ a :: post → a.order = .readCh c → a.reply = some (.readCh v) →
          (∀ b ∈ pre ++ post, b.order ≠ .readCh c) → q2.get c = { q.get c with current := some v, mark := false }) ∧
        ∀ c pre a post, r.records = pre ++ a :: post → a.order = .readCh c → a.reply = none →
          (∀ b ∈ pre ++ post, b.order ≠ .readCh c) → q2.get c = q.get c)) ∧
  ∀ (s : State) (h : RunHeader) (rest : List CruMsg), s.Awake → s.st.cru.inbox = .runOpened h :: rest →
    Answers .cruRunOpened s fun t =>
      t.st = { s.st with cru := t.st.cru, mpc := { s.st.mpc with inbox := t.st.mpc.inbox } } ∧ t.st.cru.inbox = rest ∧
        (∀ x, t.st.cruSocket x = { table := freshTable (s.st.profile x), request := .none }) ∧
        t.st.mpc.inbox = s.st.mpc.inbox ++ ([0, 1, 2, 3] : List Socket).filterMap fun x =>
          match (s.st.cruSocket x).request with
          | .none => none
          | .preset b _ => some (.withdraw x b)
          | .adjust b _ _ => some (.withdraw x b)
          | .verify b => some (.withdraw x b)

/-! ### The Meter Port Controller (chapter 7) -/

/-- A port runs one burst and keeps one waiting; a withdrawal reaches only the waiting one, and overtakes every request but
that of its own burst (that it does not overtake that one is the model's choice, log 20); orders go out after the line's
rest, on the MTX of the position the remap ties to the socket, and stray bytes change nothing. That a request which finds one
burst running and one waiting stays untaken is DEDUCED (log 21). -/
def Obligations.PortsTakeBursts : Prop :=
  (∀ (s : State) (x : Socket) (rest : List MpcMsg) (b : Burst), s.Awake →
    Heard MpcMsg.overtakes s.st.mpc.inbox (.request x b) rest →
    ((s.st.port x).running = none →
      exec (.burstRequest x b.kind) s = .next (s.upd fun st => (st.mpcLeft rest).modPort x fun p => { p with
        running := some (b.begun (if p.rest = none then .sending else .waitRest)) })) ∧
    ((s.st.port x).running ≠ none → (s.st.port x).waiting = none →
      exec (.burstRequest x b.kind) s = .next (s.upd fun st => (st.mpcLeft rest).modPort x fun p =>
        { p with waiting := some b })) ∧
    ((s.st.port x).running ≠ none → (s.st.port x).waiting ≠ none → exec (.burstRequest x b.kind) s = .next s)) ∧
  (∀ (s : State) (x : Socket) (rest : List MpcMsg) (n : Nat), s.Awake →
    Heard MpcMsg.overtakes s.st.mpc.inbox (.withdraw x n) rest →
    (∀ b, (s.st.port x).waiting = some b → b.id = n →
      exec (.burstWithdrawal x) s = .next (s.upd fun st => (st.mpcLeft rest).modPort x fun p =>
        { p with waiting := none })) ∧
    ((∀ b, (s.st.port x).waiting = some b → b.id ≠ n) →
      exec (.burstWithdrawal x) s = .next (s.upd fun st => st.mpcLeft rest))) ∧
  (∀ (s : State) (x : Socket) (r : Running), s.Awake → (s.st.port x).running = some r → r.stage = .sending →
    exec (.orderSent x) s = .next (s.upd fun st => st.modPort x fun p =>
      { p with running := some { r with stage := .awaiting [] 250 } })) ∧
  (∀ (s : State) (x : Socket), s.Awake → (s.st.port x).rest ≠ none →
    exec (.lineRestEnd x) s = .next (s.upd fun st => st.modPort x fun p =>
      { p with rest := none, running := p.running.map fun r =>
        if r.stage = .waitRest then { r with stage := .sending } else r })) ∧
  (∀ (s : State) (p : Position) (b : RxByte), exec (.strayByte p b) s = .next s) ∧
  ∀ (st : Station) (p : Position),
    (∀ x r, st.socketAt p = some x → (st.port x).running = some r → r.stage = .sending →
      st.meterTx p = some r.order.encode) ∧
    ((∀ x r, st.socketAt p = some x → (st.port x).running = some r → r.stage ≠ .sending) → st.meterTx p = none)

/-- An exchange ends in OK and the burst goes on, or the burst ends: its requester is told, the end of a PRESET or ADJUST burst
is told to the GCU, the line rests, and the waiting burst moves up. The bytes are those on the MRX of the position the remap
ties to the socket. A reply is judged byte by byte, by the checks of R151 in their order; the statuses, lengths and fields of
the replies are those of R198. -/
def Obligations.ExchangesEndBursts : Prop :=
  (∀ (s : State) (p : Position) (x : Socket) (r : Running) (rx : List Byte) (n : Nat), s.Awake →
    s.st.socketAt p = some x → (s.st.port x).running = some r → r.stage = .awaiting rx n →
    let ends := fun (c : Instr) (o : Result) (reply : Option Reply) (pause : Nat) =>
      let records := r.records ++ [{ order := r.order, outcome := o, reply := reply }]
      let report : BurstReport := { id := r.id, kind := r.kind, result := o, records := records }
      (∀ y ys, o = .ok → r.rest = y :: ys →
        exec c s = .next (s.upd fun st => st.modPort x fun p => { p with
          rest := some pause
          running := some { r with order := y, rest := ys, records := records, stage := .waitRest } })) ∧
      ((o ≠ .ok ∨ r.rest = []) →
        exec c s = .next (s.upd fun st => { st with
          mpc := { st.mpc with
            ports := st.mpc.ports.set x
              { rest := some pause, waiting := none, running := (st.port x).waiting.map fun b => b.begun .waitRest } }
          inc := { st.inc with inbox := st.inc.inbox ++ (if r.kind = .probe then [.probeEnd x report] else []) }
          cru := { st.cru with inbox := st.cru.inbox ++
              (if r.kind = .preset ∨ r.kind = .adjust ∨ r.kind = .verify then [.burstEnd x report] else []) }
          slu := { st.slu with inbox := st.slu.inbox ++ (if r.kind = .seal then [.burstEnd x report] else []) }
          gcu := { st.gcu with inbox := st.gcu.inbox ++
              (if r.kind = .preset ∨ r.kind = .adjust then [.writeBurstEnd x 500] else []) } }))
    (∀ bytes rx2, receive r.order rx bytes = (none, rx2) →
      exec (.replyReceived p bytes) s = .next (s.upd fun st => st.modPort x fun q =>
        { q with running := some { r with stage := .awaiting rx2 n } })) ∧
    (∀ bytes o reply rx2, receive r.order rx bytes = (some (o, reply), rx2) →
      ends (.replyReceived p bytes) o reply (if o = .timeout ∨ o = .badReply then 50 else 2)) ∧
    (rx = [] → ends (.replyTimerExpiry x) .timeout none 50) ∧
    (rx ≠ [] → ends (.replyTimerExpiry x) .badReply none 50)) ∧
  (∀ (o : Order) (rx : List Byte), receive o rx [] = (none, rx) ∧
    ∀ bs, receive o rx (none :: bs) = (some (.badReply, none), rx)) ∧
  (∀ (o : Order) (rx : List Byte) (b : Byte) (bs : List RxByte),
    let q := rx ++ [b]
    let waits := receive o rx (some b :: bs) = receive o q bs
    let decides := fun d => receive o rx (some b :: bs) = (some d, q)
    let status := replyStatus (byteAt q 2)
    let n := (byteAt q 3).toNat
    (q.length = 1 → (b ≠ 0x3C → decides (.badReply, none)) ∧ (b = 0x3C → waits)) ∧
    ((q.length = 2 ∨ q.length = 3) → waits) ∧
    (q.length = 4 →
      (∀ r, status = some r → n ∉ replyLengths o r → decides (.badReply, none)) ∧
      ((∀ r, status = some r → n ∈ replyLengths o r) → waits)) ∧
    (5 ≤ q.length → q.length < 5 + n → waits) ∧
    (5 + n ≤ q.length →
      let checks := crc8 ((q.drop 1).take (3 + n)) = byteAt q (4 + n)
      let answers := byteAt q 1 = o.code ∧ ∀ c, o.channel = some c → byteAt q 4 = BitVec.ofNat 8 c.val
      let fields := replyFields o ((q.drop 4).take n)
      (¬ checks → decides (.badReply, none)) ∧ (checks → ¬ answers → decides (.badReply, none)) ∧
      (checks → answers → (status = none ∨ (status = some .ok ∧ fields = none)) → decides (.badReply, none)) ∧
      (∀ f, checks → answers → status = some .ok → fields = some f → decides (.ok, some f)) ∧
      ∀ r, checks → answers → status = some r → r ≠ .ok → decides (r, none))) ∧
  (∀ b : Byte, (b = 0 → replyStatus b = some .ok) ∧ (b = 1 → replyStatus b = some .refused) ∧
    (b = 2 → replyStatus b = some .locked) ∧ (b = 3 → replyStatus b = some .badOrder) ∧
    (b = 4 → replyStatus b = some .badCheck) ∧ (4 < b.toNat → replyStatus b = none)) ∧
  (∀ (c : Channel) (v : Int) (f : SealFields) (r : Result), r ≠ .ok →
    replyLengths .ident .ok = [12] ∧ replyLengths (.readCh c) .ok = [3] ∧ replyLengths (.writeCh c v) .ok = [1] ∧
    replyLengths (.writeSeal f) .ok = [0] ∧ replyLengths .lock .ok = [1] ∧ replyLengths .readSeal .ok = [1, 22] ∧
    replyLengths (.readCh c) r = [1] ∧ replyLengths (.writeCh c v) r = [1] ∧ replyLengths .ident r = [0] ∧
    replyLengths (.writeSeal f) r = [0] ∧ replyLengths .lock r = [0] ∧ replyLengths .readSeal r = [0]) ∧
  ∀ (b : List Byte) (c : Channel) (v : Int) (f : SealFields),
    let ident := fun l => some (.ident (word16 b 0) (word32 b 2 ++ word32 b 6) (maskFlags (byteAt b 10)) l)
    (byteAt b 11 = 0 → replyFields .ident b = ident false) ∧ (byteAt b 11 = 1 → replyFields .ident b = ident true) ∧
    (1 < (byteAt b 11).toNat → replyFields .ident b = none) ∧
    replyFields (.readCh c) b = some (.readCh (word16 b 1).toInt) ∧
    replyFields (.writeCh c v) b = some .writeCh ∧ replyFields (.writeSeal f) b = some .writeSeal ∧
    (byteAt b 0 = 0 → replyFields .lock b = some (.lock false)) ∧
    (byteAt b 0 = 1 → replyFields .lock b = some (.lock true)) ∧ (1 < (byteAt b 0).toNat → replyFields .lock b = none) ∧
    (byteAt b 0 = 0 → b.length = 1 → replyFields .readSeal b = some (.readSeal none)) ∧
    (byteAt b 0 = 1 → b.length = 22 → replyFields .readSeal b = some (.readSeal (some (b.drop 1)))) ∧
    ((byteAt b 0 = 0 → b.length ≠ 1) → (byteAt b 0 = 1 → b.length ≠ 22) → replyFields .readSeal b = none)

/-! ### The Seal Unit (chapter 8) -/

/-- A hand-over is verified when a channel is marked, else claimed; a claim's number, or a later assignment, is held with its
record and the SEAL burst; a refused claim takes the socket OUT. Which cause rosterCause gives StepEndAndRunEndMoveSockets
states (log 14). The outcome of a verification acts by the phase at its report, whatever the phase at which the SLU takes it.
The model's choices: a phase R165 does not name takes its row of ENDED (log 41, DESIGN CHOICE), a claim placed after a next
run has opened carries that run's number (log 26, DEDUCED), and the SEAL burst asked for gets the next burst number and waits
as a request (log 20, DESIGN CHOICE). That a closed run's hand-over or verification outcome which an SLU at the next run takes
acts by its own rule is the model's choice too (log 51, DESIGN CHOICE). -/
def Obligations.SealingTakesItsNumber : Prop :=
  (∀ (s : State) (x : Socket) (rest : List SluMsg), s.Awake → Heard SluMsg.overtakes s.st.slu.inbox (.handOver x) rest →
    (s.st.ctx x).run = .done →
    (s.st.bmr.phase = .ended →
      exec .handOver s = .next (s.upd fun st => (st.sluLeft rest).modCtx x fun c => c.leaves (st.rosterCause x))) ∧
    (s.st.bmr.phase ≠ .ended → s.st.anyMark x = true →
      exec .handOver s = .next (s.upd fun st => { st with
        stc := { st.stc with ctx := st.stc.ctx.set x { st.ctx x with run := .verifying } }
        cru := { st.cru with inbox := st.cru.inbox ++ [.verifyRequest x] }
        slu := { st.slu with
          inbox := rest, sockets := st.slu.sockets.set x { st.sluSocket x with request := .verify } } })) ∧
    (s.st.bmr.phase ≠ .ended → s.st.anyMark x = false →
      exec .handOver s = .next (s.upd fun st => ((st.sluLeft rest).modCtx x fun c =>
        { c with run := .claiming }).placeFrame st.bmr.runNo (.sealClaim (BitVec.ofNat 8 x.val))))) ∧
  (∀ (s : State) (x : Socket) (rest : List SluMsg) (ok : Bool) (p : Phase), s.Awake →
    Heard SluMsg.overtakes s.st.slu.inbox (.verification x ok p) rest → (s.st.ctx x).run = .verifying →
    let left := fun st : Station => (st.sluLeft rest).modSlu x fun y => { y with request := .none }
    (p = .sealing → ok = true →
      exec (.verificationOutcome x) s = .next (s.upd fun st => ((left st).modCtx x fun c =>
        { c with run := .claiming }).placeFrame st.bmr.runNo (.sealClaim (BitVec.ofNat 8 x.val)))) ∧
    (p = .sealing → ok = false →
      exec (.verificationOutcome x) s = .next (s.upd fun st => (left st).modCtx x fun c => c.leaves .verifyFail)) ∧
    (p ≠ .sealing →
      exec (.verificationOutcome x) s = .next (s.upd fun st => (left st).modCtx x fun c =>
        c.leaves (st.rosterCause x)))) ∧
  ∀ (s : State) (x : Socket) (rest : List SluMsg), s.Awake →
    let taken := fun (n : Nat) (st : Station) => { st with
      stc := { st.stc with ctx := st.stc.ctx.set x { st.ctx x with run := .sealing } }
      slu := { st.slu with inbox := rest, sockets := st.slu.sockets.set x (st.sealBegun x n) }
      mpc := st.burstAsked x .seal (.writeSeal (st.recordFields x n)) [.lock, .readSeal] }
    (∀ n, Heard SluMsg.overtakes s.st.slu.inbox (.ownClaim x (.assigned n)) rest → (s.st.ctx x).run = .claiming →
      exec .ownClaimNotice s = .next (s.upd (taken n))) ∧
    (Heard SluMsg.overtakes s.st.slu.inbox (.ownClaim x .waiting) rest → (s.st.ctx x).run = .claiming →
      exec .ownClaimNotice s = .next (s.upd fun st => (st.sluLeft rest).modCtx x fun c => { c with run := .sealWait })) ∧
    (Heard SluMsg.overtakes s.st.slu.inbox (.ownClaim x .refused) rest → (s.st.ctx x).run = .claiming →
      exec .ownClaimNotice s = .next (s.upd fun st => (st.sluLeft rest).modCtx x fun c =>
        c.leaves (if (st.ownEntry x).state = .out then st.rosterCause x else .fault))) ∧
    ∀ n, Heard SluMsg.overtakes s.st.slu.inbox (.assignment x n) rest → (s.st.ctx x).run = .sealWait →
      exec .assignmentNotice s = .next (s.upd (taken n))

/-- A SEAL burst's end writes SEAL_DONE when the meter is locked and reads the record back, else SEAL_SPOIL with the cause of
R172. The run's end releases a waiting claim and spoils a burst not begun; a new run forgets all. That the run-ended notice
takes the sockets, and so places their SEAL_SPOILs, in logical order 0..3 is the model's choice (log 43, DESIGN CHOICE). Which
cause rosterCause gives StepEndAndRunEndMoveSockets states (log 14). That the SLU withdraws a burst at once inside the run-ended
notice, from the port's waiting place and from the requests the port has not taken, is the model's choice (log 20, DESIGN
CHOICE). The sockets' burst numbers are taken to differ, as StationLawsKept says every step keeps it. -/
def Obligations.SealBurstEndsInDoneOrSpoil : Prop :=
  (∀ (s : State) (x : Socket) (rest : List SluMsg) (r : BurstReport) (f : SealFields), s.Awake →
    Heard SluMsg.overtakes s.st.slu.inbox (.burstEnd x r) rest → (s.st.sluSocket x).request = .seal r.id →
    (s.st.sluSocket x).record = some { fields := f, status := .pending } →
    let spoils := fun c : SpoilCause => exec (.sealBurstEnd x) s = .next (s.upd fun st =>
      (((st.sluLeft rest).modSlu x fun y => { y with
        record := some { fields := f, status := .spoiled }, request := .none }).modCtx x fun k =>
          k.leaves .sealSpoiled).placeFrame f.run (.sealSpoil (BitVec.ofNat 8 x.val) f.number c.code))
    (r.result = .locked → spoils .locked) ∧ (r.result ≠ .locked → r.result ≠ .ok → spoils .svcFail) ∧
    ∀ a b c lk p, r.result = .ok → r.records = [a, b, c] → a.reply = some .writeSeal → b.reply = some (.lock lk) →
      c.reply = some (.readSeal p) →
      (lk = false → spoils .svcFail) ∧ (lk = true → p ≠ some f.bytes → spoils .sealMismatch) ∧
      (lk = true → p = some f.bytes →
        exec (.sealBurstEnd x) s = .next (s.upd fun st =>
          (((st.sluLeft rest).modSlu x fun y => { y with
            record := some { fields := f, status := .written }, request := .none }).modCtx x fun k =>
              { k with run := .sealed }).placeFrame f.run (.sealDone (BitVec.ofNat 8 x.val) f.number f.digest)))) ∧
  (∀ (s : State) (rest : List SluMsg) (e : EndCause), s.Awake → Heard SluMsg.overtakes s.st.slu.inbox (.ended e) rest →
    s.st.SealBurstsApart →
    let asks := fun (b : Nat) (m : MpcMsg) => match m with | .request _ d => d.id == b | .withdraw _ _ => false
    let notBegun := fun x b => (s.st.port x).waiting.any (·.id == b) || s.st.mpc.inbox.any (asks b)
    let spoils := fun x => match (s.st.ctx x).run, (s.st.sluSocket x).request, (s.st.sluSocket x).record with
      | .sealing, .seal b, some rec => if notBegun x b then some (b, rec.fields) else none
      | _, _, _ => none
    Answers .sluRunEnded s fun t =>
      t.st = { s.st with
        stc := { s.st.stc with ctx := t.st.stc.ctx }
        slu := { s.st.slu with inbox := rest, sockets := t.st.slu.sockets }
        lkc := { s.st.lkc with
          outbound := s.st.lkc.outbound ++ ([0, 1, 2, 3] : List Socket).filterMap fun x =>
            (spoils x).map fun (_, f) => {
              run := f.run, place := .queued, withdrawn := false, counted := false
              body := .sealSpoil (BitVec.ofNat 8 x.val) f.number
                (if e = .aborted then SpoilCause.aborted else .fault).code } }
        mpc := { s.st.mpc with
          inbox := s.st.mpc.inbox.filter fun m =>
            ([0, 1, 2, 3] : List Socket).all fun x => !(spoils x).any fun (b, _) => asks b m
          ports := t.st.mpc.ports } } ∧
      ∀ x,
        ((s.st.ctx x).run = .sealWait → t.st.ctx x = (s.st.ctx x).leaves (s.st.rosterCause x)) ∧
        (∀ b f, spoils x = some (b, f) →
          t.st.ctx x = (s.st.ctx x).leaves .sealSpoiled ∧
          t.st.sluSocket x =
            { s.st.sluSocket x with record := some { fields := f, status := .spoiled }, request := .none } ∧
          ((∃ w, (s.st.port x).waiting = some w ∧ w.id = b) → t.st.port x = { s.st.port x with waiting := none }) ∧
          ((∀ w, (s.st.port x).waiting = some w → w.id ≠ b) → t.st.port x = s.st.port x)) ∧
        (spoils x = none → t.st.sluSocket x = s.st.sluSocket x ∧ t.st.port x = s.st.port x ∧
          ((s.st.ctx x).run ≠ .sealWait → t.st.ctx x = s.st.ctx x))) ∧
  ∀ (s : State) (h : RunHeader) (rest : List SluMsg), s.Awake → s.st.slu.inbox = .runOpened h :: rest →
    exec .sluRunOpened s = .next (s.upd fun st => { st with slu := { st.slu with
      inbox := rest, sockets := .all4 { held := none, record := none, request := .none } } })

/-! ### The Report Unit (chapter 10) -/

/-- A query notice places a STATE built now, unless one is on its way; behind one on the wire the query is noted. A STATE holds
the station's and each socket's state at its building. The lamp timer turns the shared phase, eight of whose 125 ms steps make
a period of slow flash: four lit and four dark, and fast flash one lit and one dark in turn. That the phase is counted in steps
of 125 ms, and the lit half comes first, is the model's choice (log 27, DESIGN CHOICE, unsafe). -/
def Obligations.QueriesAndLamps : Prop :=
  (∀ (s : State) (n : Nat), s.Awake → s.st.rpu.queries = n + 1 →
    ((∀ e ∈ s.st.lkc.outbound, Station.isState e.body = false) → s.st.rpu.queryPending = false →
      exec .queryNotice s = .next (s.upd fun st => { st with
        rpu := { st.rpu with queries := n }
        lkc := { st.lkc with outbound := st.lkc.outbound ++ [{
          run := 0, body := .state st.stateReport, place := .queued, withdrawn := false, counted := false }] } })) ∧
    (∀ pre e post, s.st.lkc.outbound = pre ++ e :: post → (∀ d ∈ pre, Station.isState d.body = false) →
      Station.isState e.body = true →
      exec .queryNotice s = .next (s.upd fun st => { st with rpu := { st.rpu with
        queries := n, queryPending := if e.place = .onWire then true else st.rpu.queryPending } }))) ∧
  (∀ s : State, s.Awake →
    exec .lampTimer s = .next (s.upd fun st => { st with rpu := { st.rpu with lampPhase := st.rpu.lampPhase + 1 } })) ∧
  (∀ st : Station,
    let r := st.stateReport
    (∀ c, st.cfl.status = some c → r.status = c.code) ∧
    r.stationByte = BitVec.ofNat 8 (st.bmr.phase.code + 8 * st.lkc.link.code + 32 * st.rpu.ownFault.code) ∧
    r.objections = BitVec.ofNat 16 st.rpu.objectionTotal ∧ r.ignored = BitVec.ofNat 16 st.rpu.ignored ∧
    r.run = st.bmr.runNo ∧ (∀ k, st.bmr.step = some k → r.step = BitVec.ofNat 8 k) ∧
    (st.bmr.step = none → r.step = 0xFF) ∧
    ∀ x : Socket,
      let a := r.sockets.get x
      a.insertion = (st.incSocket x).state.code ∧ a.run = (st.ctx x).run.code ∧
      (∀ c, (st.ctx x).run = .out → (st.ctx x).outCause = some c → a.cause = c.code) ∧
      ((st.ctx x).run ≠ .out → a.cause = (st.incSocket x).joinFault.code) ∧
      (∀ p, (st.incSocket x).probe = some p → a.detect = p.detect.code) ∧
      ((st.incSocket x).probe = none → a.detect = DetectClass.none.code) ∧
      a.changes = BitVec.ofNat 8 (st.incSocket x).changes ∧
      a.overburden = BitVec.ofNat 8 (st.incSocket x).overburdenFaults ∧
      a.openFaults = BitVec.ofNat 8 (st.incSocket x).openFaults) ∧
  (∀ n : Fin 8, Station.litIn n .off = false ∧ Station.litIn n .steady = true ∧
    (Station.litIn n .slowFlash = true ↔ n.val < 4) ∧ (Station.litIn n .fastFlash = true ↔ n.val % 2 = 0)) ∧
  ∀ (st : Station) (x : Socket),
    let fast := ((st.ctx x).run = .out ∧ (st.ctx x).outCause ≠ some .aborted) ∨
      ((st.ctx x).run = .idle ∧ (st.incSocket x).joinFault ≠ .none ∧ (st.incSocket x).joinFault ≠ .disabled)
    let shuntOpen := (st.incSocket x).state = .inserting ∨ (st.incSocket x).state = .inserted
    let ends := (st.ctx x).run = .done ∨ (st.ctx x).run.inSealing = true
    (st.enabled x = false → st.lamp x = .off) ∧
    (st.enabled x = true → (st.ctx x).run = .sealed → st.lamp x = .slowFlash) ∧
    (st.enabled x = true → (st.ctx x).run ≠ .sealed →
      (fast → st.lamp x = .fastFlash) ∧ (¬ fast → shuntOpen → st.lamp x = .steady) ∧
        (¬ fast → ¬ shuntOpen → ends → st.lamp x = .steady) ∧ (¬ fast → ¬ shuntOpen → ¬ ends → st.lamp x = .off)) ∧
    ∀ p, st.socketAt p = some x → st.lampOutput p = Station.litIn st.rpu.lampPhase (st.lamp x)

/-! ### Headline statements -/

/-- Every frame, read back from its bytes on the wire, is the frame: no field of any kind is dropped. -/
def Obligations.FrameBytesReadBack : Prop := ∀ f : Frame, readFrame f.encode = some f

/-- The seal accounts are kept by every step: the waiting list, the balance of issued numbers, the pool's order and its bounds
(at most four blocks of 1..65535 numbers from 1 to 4,294,967,295), and no two entries with one number. -/
def Obligations.SealAccountsKept : Prop :=
  ∀ s t : State, s.st.bmr.Sound → step s = .next t → t.st.bmr.Sound

/-- Every step keeps the laws of both queues, the ports, the seal bursts, the insertion states and the counters, and leaves no run standing that
the end test would end. Before start-up has ended, the law of the outbound queue is kept from an empty queue, into which the
ANNOUNCE goes first. -/
def Obligations.StationLawsKept : Prop :=
  ∀ s t : State, step s = .next t →
    (s.st.lkc.InboundSound → t.st.lkc.InboundSound) ∧
    ((s.st.cfl.stage = .running ∨ s.st.lkc.outbound = []) → s.st.lkc.OutboundSound → t.st.lkc.OutboundSound) ∧
    ((∀ x, (s.st.port x).Sound) → ∀ x, (t.st.port x).Sound) ∧
    (s.st.SealBurstsApart → t.st.SealBurstsApart) ∧
    ((∀ x, (s.st.incSocket x).Sound) → ∀ x, (t.st.incSocket x).Sound) ∧
    (s.st.CountersSound → t.st.CountersSound) ∧ (¬ s.st.bmr.EndDue → ¬ t.st.bmr.EndDue)

/-- All these laws hold at reset. -/
def Obligations.LawsHoldAtReset : Prop :=
  State.reset.st.bmr.Sound ∧ State.reset.st.lkc.InboundSound ∧ State.reset.st.lkc.OutboundSound ∧ (∀ x, (State.reset.st.port x).Sound) ∧
    State.reset.st.SealBurstsApart ∧
    (∀ x, (State.reset.st.incSocket x).Sound) ∧ State.reset.st.CountersSound ∧ ¬ State.reset.st.bmr.EndDue
end

