-- ==== Sys2Proof/Laws/Words.lean ====
section
/-! SUPPORT. Words of several bytes: what is written reads back, and what is read is what was written. -/

namespace Sys2Proof.Machine

theorem join16_extract (x : W16) : join16 (x.extractLsb' 8 8) (x.extractLsb' 0 8) = x := by
  apply BitVec.eq_of_getLsbD_eq
  intro i hi
  simp only [join16, BitVec.getLsbD_append, BitVec.getLsbD_extractLsb']
  by_cases h : i < 8
  · simp [h]
  · simp only [h, decide_false, Bool.false_and, if_false]
    simp [show 8 + (i - 8) = i by omega, show i - 8 < 8 by omega]

theorem join32_extract (x : W32) :
    join32 (x.extractLsb' 24 8) (x.extractLsb' 16 8) (x.extractLsb' 8 8) (x.extractLsb' 0 8) = x := by
  apply BitVec.eq_of_getLsbD_eq
  intro i hi
  simp only [join32, BitVec.getLsbD_append, BitVec.getLsbD_extractLsb']
  by_cases h0 : i < 8
  · simp [h0]
  · by_cases h1 : i < 16
    · simp [h0, show i - 8 < 8 by omega, show 8 + (i - 8) = i by omega]
    · by_cases h2 : i < 24
      · simp [h0, show ¬ i - 8 < 8 by omega, show i - 8 - 8 < 8 by omega, show 16 + (i - 8 - 8) = i by omega]
      · simp [h0, show ¬ i - 8 < 8 by omega, show ¬ i - 8 - 8 < 8 by omega, show i - 8 - 8 - 8 < 8 by omega,
          show 24 + (i - 8 - 8 - 8) = i by omega]

@[simp] theorem length_be16 (x : W16) : (be16 x).length = 2 := rfl

@[simp] theorem length_be32 (x : W32) : (be32 x).length = 4 := rfl

/-- A 16-bit word written after the bytes `bs` reads back at their end. -/
theorem word16_append (bs rest : List Byte) (x : W16) : word16 (bs ++ be16 x ++ rest) bs.length = x := by
  simp [word16, byteAt, be16, join16_extract]

/-- A frame's covered bytes are its header and its body. -/
theorem Frame.length_covered (f : Frame) : f.covered.length = 4 + f.body.bytes.length := by
  simp [Frame.covered]; omega

theorem be16_join (a b : Byte) : be16 (join16 a b) = [a, b] := by
  have h1 : (join16 a b).extractLsb' 8 8 = a := by
    apply BitVec.eq_of_getLsbD_eq; intro i hi
    simp only [join16, BitVec.getLsbD_append, BitVec.getLsbD_extractLsb']
    simp [hi]
  have h2 : (join16 a b).extractLsb' 0 8 = b := by
    apply BitVec.eq_of_getLsbD_eq; intro i hi
    simp only [join16, BitVec.getLsbD_append, BitVec.getLsbD_extractLsb']
    simp [hi]
  simp [be16, h1, h2]

theorem be32_join (a b c d : Byte) : be32 (join32 a b c d) = [a, b, c, d] := by
  have h1 : (join32 a b c d).extractLsb' 24 8 = a := by
    apply BitVec.eq_of_getLsbD_eq; intro i hi
    simp only [join32, BitVec.getLsbD_append, BitVec.getLsbD_extractLsb']
    simp [hi, show ¬ 24 + i < 8 by omega, show ¬ 24 + i - 8 < 8 by omega, show ¬ 24 + i - 8 - 8 < 8 by omega,
      show 24 + i - 8 - 8 - 8 = i by omega]
  have h2 : (join32 a b c d).extractLsb' 16 8 = b := by
    apply BitVec.eq_of_getLsbD_eq; intro i hi
    simp only [join32, BitVec.getLsbD_append, BitVec.getLsbD_extractLsb']
    simp [hi, show ¬ 16 + i < 8 by omega, show ¬ 16 + i - 8 < 8 by omega, show 16 + i - 8 - 8 = i by omega]
  have h3 : (join32 a b c d).extractLsb' 8 8 = c := by
    apply BitVec.eq_of_getLsbD_eq; intro i hi
    simp only [join32, BitVec.getLsbD_append, BitVec.getLsbD_extractLsb']
    simp [hi]
  have h4 : (join32 a b c d).extractLsb' 0 8 = d := by
    apply BitVec.eq_of_getLsbD_eq; intro i hi
    simp only [join32, BitVec.getLsbD_append, BitVec.getLsbD_extractLsb']
    simp [hi]
  simp [be32, h1, h2, h3, h4]

/-- A list of bytes is its bytes, one by one. -/
theorem bytes_eq {b : List Byte} {n : Nat} (h : b.length = n) : (List.range n).map (byteAt b) = b := by
  subst h
  apply List.ext_getElem
  · simp
  · intro i h1 h2; simp [byteAt, h2]

end Sys2Proof.Machine
end

