-- ==== Sys2Proof/Laws/Frames.lean ====
section
/-! SUPPORT. What the first three checks of R46 make of the bytes of a frame. -/

namespace Sys2Proof.Machine

/-- R46 check 3: a known kind with its length is read, field by field. -/
theorem readBody_known {kind : Byte} {b : List Byte} (h : (kind, b.length) ∈ kindLengths) :
    ∃ x, readBody kind b = some x ∧ x.kind = kind ∧ x.bytes = b := by
  simp only [kindLengths, List.mem_cons, Prod.mk.injEq, List.not_mem_nil, or_false] at h
  rcases h with h | h | h | h | h | h | h | h | h | h | h | h | h | h | h | h <;> obtain ⟨rfl, hl⟩ := h <;>
    simp only [readBody, hl] <;>
    refine ⟨_, rfl, rfl, Eq.trans ?_ (bytes_eq hl)⟩ <;>
    simp [Body.bytes, SocketReport.bytes, JoinSocket.bytes, readSocketReport, readJoinSocket, word16, word32, be16_join,
      be32_join, List.range_succ]

theorem readBody_unknown {kind : Byte} {b : List Byte} (h : (kind, b.length) ∉ kindLengths) : readBody kind b = none := by
  unfold readBody
  split
  all_goals first | rfl | (exfalso; apply h; rename_i h1 h2; rw [h2, show kind = BitVec.ofNat 8 kind.toNat by simp, h1]; decide)

/-- Checks 1 and 2 of R46. -/
theorem readFrame_long {bs : List Byte} (h : 40 < declaredLength bs) : readFrame bs = none := by
  simp [readFrame, Config.maxBody, h]

theorem readFrame_short {bs : List Byte} (h : bs.length < 6 + declaredLength bs) : readFrame bs = none := by
  simp [readFrame, frameCheckOk, show ¬ 6 + declaredLength bs ≤ bs.length by omega]

/-- Checks 2 and 3 of R46 on a frame that is whole. -/
theorem readFrame_whole {sender kind run len c1 c2 : Byte} {body : List Byte} (hb : body.length = len.toNat)
    (hl : len.toNat ≤ 40) : readFrame (sender :: kind :: run :: len :: (body ++ [c1, c2])) =
      if crc16 (sender :: kind :: run :: len :: body) = c1 ++ c2 then
        (readBody kind body).map fun x => { sender := sender, run := run, body := x }
      else none := by
  have hd : declaredLength (sender :: kind :: run :: len :: (body ++ [c1, c2])) = body.length := by
    simp [declaredLength, byteAt, hb]
  have ht : (sender :: kind :: run :: len :: (body ++ [c1, c2])).take (4 + body.length) =
      sender :: kind :: run :: len :: body := by
    rw [show 4 + body.length = body.length + 1 + 1 + 1 + 1 by omega]
    simp
  have hw : word16 (sender :: kind :: run :: len :: (body ++ [c1, c2])) (4 + body.length) = c1 ++ c2 := by
    rw [show 4 + body.length = body.length + 1 + 1 + 1 + 1 by omega]
    simp [word16, byteAt, join16]
  have hc : frameCheckOk (sender :: kind :: run :: len :: (body ++ [c1, c2])) =
      decide (crc16 (sender :: kind :: run :: len :: body) = c1 ++ c2) := by
    unfold frameCheckOk
    simp only [hd, ht, hw]
    have : (6 + body.length ≤ (sender :: kind :: run :: len :: (body ++ [c1, c2])).length) := by simp; omega
    simp only [this, decide_true, Bool.true_and]
    rfl
  unfold readFrame
  rw [hd, hc, if_neg (show ¬ body.length > Config.maxBody by simp [Config.maxBody]; omega)]
  simp only [decide_eq_true_eq]
  congr 1
  simp [frameFields, hd, byteAt]

end Sys2Proof.Machine
end

