-- ==== Sys2Proof/Laws/Image.lean ====
section
/-! SUPPORT. What the readers of the configuration image make of its bytes (R183 to R187, R199). -/

namespace Sys2Proof.Machine

theorem within_iff {lo hi n : Nat} : within lo hi n = true ↔ lo ≤ n ∧ n ≤ hi := by simp [within]

theorem code4_some {b : List Byte} {i : Nat} (h : natAt b i ≤ 3) : ∃ c, code4 b i = some c ∧ c.val = natAt b i := by
  have h' : natAt b i < 4 := by omega
  exact ⟨⟨natAt b i, h'⟩, by simp [code4, h'], rfl⟩

theorem code4_none {b : List Byte} {i : Nat} (h : ¬ natAt b i ≤ 3) : code4 b i = none := by
  simp [code4, show ¬ natAt b i < 4 by omega]

/-- Four values are present together exactly when each is. -/
theorem sequence4_some {α : Type} {f : Fin 4 → Option α} (h : ∀ i, ∃ a, f i = some a) :
    ∃ q : Quad α, sequence4 f = some q ∧ ∀ i, f i = some (q.get i) := by
  obtain ⟨a, ha⟩ := h 0; obtain ⟨b, hb⟩ := h 1; obtain ⟨c, hc⟩ := h 2; obtain ⟨d, hd⟩ := h 3
  refine ⟨⟨a, b, c, d⟩, by simp [sequence4, ha, hb, hc, hd], fun i => ?_⟩
  match i with
  | 0 => exact ha
  | 1 => exact hb
  | 2 => exact hc
  | 3 => exact hd

theorem sequence4_none {α : Type} {f : Fin 4 → Option α} {i : Fin 4} (h : f i = none) : sequence4 f = none := by
  unfold sequence4
  split
  · rename_i a b c d ha hb hc hd
    match i with
    | 0 => simp [h] at ha
    | 1 => simp [h] at hb
    | 2 => simp [h] at hc
    | 3 => simp [h] at hd
  · rfl

theorem get_maskFlags (b : Byte) (x : Fin 4) : (maskFlags b).get x = b.getLsbD x.val := by
  match x with
  | 0 => rfl
  | 1 => rfl
  | 2 => rfl
  | 3 => rfl

theorem readStation_inRange {b : List Byte} (h : StationInRange b) : ∃ c, readStation b 6 = some c ∧ c.ReadFrom b := by
  obtain ⟨hx, h1, h2, h3⟩ := h
  obtain ⟨m, hm, hm'⟩ := sequence4_some (f := fun i => code4 b (6 + 1 + i.val)) fun i => (code4_some (hx i).1).imp fun c hc => hc.1
  obtain ⟨r, hr, hr'⟩ := sequence4_some (f := fun i : Fin 4 => if natAt b (6 + 5 + i.val) ≤ 7 then some (natAt b (6 + 5 + i.val)) else none)
    fun i => ⟨_, if_pos (hx i).2⟩
  obtain ⟨u, hu, hu'⟩ := code4_some h1
  obtain ⟨v, hv, hv'⟩ := code4_some h2
  obtain ⟨w, hw, hw'⟩ := code4_some h3
  unfold readStation
  simp only [show 6 + 9 = 15 from rfl, show 6 + 10 = 16 from rfl, show 6 + 11 = 17 from rfl, show 6 + 12 = 18 from rfl] at *
  rw [hm, hr, hu, hv, hw]
  refine ⟨_, rfl, fun x => ⟨get_maskFlags _ _, ?_, ?_⟩, hu', hv', hw', rfl⟩
  · obtain ⟨c, hc, hc'⟩ := code4_some (hx x).1
    have := hm' x
    simp only [show 6 + 1 = 7 from rfl] at this
    rw [this] at hc
    show (m.get x).val = _
    rw [Option.some.inj hc, hc']
  · have := hr' x
    simp only [show 6 + 5 = 11 from rfl, if_pos (hx x).2] at this
    exact (Option.some.inj this).symm

theorem readStation_outside {b : List Byte} (h : ¬ StationInRange b) : readStation b 6 = none := by
  unfold readStation
  split
  · rename_i m r u v w hm hr hu hv hw
    exfalso; apply h
    refine ⟨fun x => ⟨?_, ?_⟩, ?_, ?_, ?_⟩
    · by_contra hc
      have := sequence4_none (f := fun i : Fin 4 => code4 b (6 + 1 + i.val)) (i := x) (code4_none hc)
      rw [this] at hm; simp at hm
    · by_contra hc
      have := sequence4_none (f := fun i : Fin 4 => if natAt b (6 + 5 + i.val) ≤ 7 then some (natAt b (6 + 5 + i.val)) else none) (i := x) (if_neg hc)
      rw [this] at hr; simp at hr
    · by_contra hc
      have := code4_none hc
      rw [this] at hu; simp at hu
    · by_contra hc
      have := code4_none hc
      rw [this] at hv; simp at hv
    · by_contra hc
      have := code4_none hc
      rw [this] at hw; simp at hw
  · rfl

/-- R185: a channel record that lies within its values is read as stored. -/
theorem readChannel_eq (b : List Byte) (k : Nat) :
    (natAt b k ≤ 3 ∧ int16 b (k + 3) ≤ int16 b (k + 5) ∧ 1 ≤ nat16 b (k + 7) ∧ nat16 b (k + 7) ≤ 10000 →
      ∃ r, readChannel b k = some r ∧ r.mode.stored = natAt b k ∧ r.preset = int16 b (k + 1) ∧ r.min = int16 b (k + 3) ∧
        r.max = int16 b (k + 5) ∧ r.sensitivity = nat16 b (k + 7)) ∧
    (¬ (natAt b k ≤ 3 ∧ int16 b (k + 3) ≤ int16 b (k + 5) ∧ 1 ≤ nat16 b (k + 7) ∧ nat16 b (k + 7) ≤ 10000) →
      readChannel b k = none) := by
  have hm : natAt b k ≤ 3 → ∃ m, channelMode (natAt b k) = some m ∧ m.stored = natAt b k := by
    intro h
    generalize natAt b k = n at *
    match n, h with
    | 0, _ => exact ⟨_, rfl, rfl⟩
    | 1, _ => exact ⟨_, rfl, rfl⟩
    | 2, _ => exact ⟨_, rfl, rfl⟩
    | 3, _ => exact ⟨_, rfl, rfl⟩
  have hn : ¬ natAt b k ≤ 3 → channelMode (natAt b k) = none := by
    intro h
    unfold channelMode
    split <;> first | omega | rfl
  constructor
  · rintro ⟨h1, h2, h3, h4⟩
    obtain ⟨m, e, e'⟩ := hm h1
    unfold readChannel
    rw [e]
    simp only [h2, within_iff.mpr ⟨h3, h4⟩, and_self, if_true]
    exact ⟨_, rfl, e', rfl, rfl, rfl, rfl⟩
  · intro h
    unfold readChannel
    by_cases h1 : natAt b k ≤ 3
    · obtain ⟨m, e, e'⟩ := hm h1
      rw [e]
      simp only [within_iff]
      rw [if_neg]
      tauto
    · rw [hn h1]

theorem readProfile_inRange {b : List Byte} {x : Socket} (h : ProfileInRange b x) :
    ∃ p, readProfile b (19 + 51 * x.val) = some p ∧ p.ReadFrom b x := by
  obtain ⟨h1, h2, h3, h4⟩ := h
  obtain ⟨q, hq, hq'⟩ := sequence4_some (f := fun c : Fin 4 => readChannel b (19 + 51 * x.val + 15 + 9 * c.val))
    fun c => ((readChannel_eq b _).1 (h4 c)).imp fun _ h => h.1
  unfold readProfile
  rw [hq]
  simp only [within_iff.mpr ⟨h1, h2⟩, h3, and_self, if_true]
  refine ⟨_, rfl, rfl, rfl, rfl, rfl, rfl, fun c => ?_⟩
  obtain ⟨r, hr, hr'⟩ := (readChannel_eq b _).1 (h4 c)
  have := hq' c
  rw [show readChannel b (19 + 51 * x.val + 15 + 9 * c.val) = some r from hr] at this
  have := Option.some.inj this
  show (q.get c).mode.stored = _ ∧ _
  rw [← this]; exact hr'

theorem readProfile_outside {b : List Byte} {x : Socket} (h : ¬ ProfileInRange b x) :
    readProfile b (19 + 51 * x.val) = none := by
  unfold readProfile
  split
  · rfl
  · rename_i q hq
    rw [if_neg]
    rw [within_iff]
    rintro ⟨⟨h1, h2⟩, h3⟩
    apply h
    refine ⟨h1, h2, h3, fun c => ?_⟩
    by_contra hc
    have := sequence4_none (f := fun c : Fin 4 => readChannel b (19 + 51 * x.val + 15 + 9 * c.val)) (i := c) ((readChannel_eq b _).2 hc)
    rw [this] at hq; simp at hq

theorem readProfiles_inRange {b : List Byte} {en : Quad Bool} (h : ∀ x, en.get x = true → ProfileInRange b x) :
    ∃ ps, readProfiles b en = some ps ∧ ∀ x, (en.get x = true → ∃ p, ps.get x = some p ∧ p.ReadFrom b x) ∧
      (en.get x = false → ps.get x = none) := by
  obtain ⟨q, hq, hq'⟩ := sequence4_some
    (f := fun s : Fin 4 => if en.get s then (readProfile b (19 + 51 * s.val)).map some else some none) fun s => by
      by_cases he : en.get s = true
      · obtain ⟨p, hp, -⟩ := readProfile_inRange (h s he)
        exact ⟨some p, by simp [he, hp]⟩
      · exact ⟨none, by simp [he]⟩
  refine ⟨q, hq, fun x => ⟨fun he => ?_, fun he => ?_⟩⟩
  · obtain ⟨p, hp, hp'⟩ := readProfile_inRange (h x he)
    have := hq' x
    simp [he, hp] at this
    exact ⟨p, this.symm, hp'⟩
  · have := hq' x
    simp [he] at this
    exact this.symm

theorem readProfiles_outside {b : List Byte} {en : Quad Bool} {x : Socket} (he : en.get x = true) (h : ¬ ProfileInRange b x) :
    readProfiles b en = none :=
  sequence4_none (i := x) (by simp [he, readProfile_outside h])

theorem adjustUsable_iff (ps : Quad (Option Profile)) (code : Byte) : adjustUsable ps code = true ↔
    (code.toNat = 255 ∨ ∃ c : Channel, code.toNat = c.val ∧ ∀ x p, ps.get x = some p → (p.channels.get c).mode ≠ .off) := by
  have h255 : (code == 0xFF) = decide (code.toNat = 255) := by
    rw [Bool.eq_iff_iff]; simp [BitVec.toNat_eq]
  unfold adjustUsable
  rw [h255]
  by_cases h : code.toNat < 4
  · have hc : adjustChannel code = some ⟨code.toNat, h⟩ := by simp [adjustChannel, h]
    rw [hc]
    simp only [Bool.or_eq_true, decide_eq_true_eq, List.all_eq_true]
    constructor
    · rintro (h1 | h1)
      · exact .inl h1
      · refine .inr ⟨⟨code.toNat, h⟩, rfl, fun x p hp => ?_⟩
        have hm : ps.get x ∈ ps.toList := by
          match x with
          | 0 => simp [Quad.toList, Quad.get]
          | 1 => simp [Quad.toList, Quad.get]
          | 2 => simp [Quad.toList, Quad.get]
          | 3 => simp [Quad.toList, Quad.get]
        have := h1 _ hm
        rw [hp] at this
        simpa using this
    · rintro (h1 | ⟨c, hc, h1⟩)
      · exact .inl h1
      · right
        have : c = ⟨code.toNat, h⟩ := Fin.ext hc.symm
        subst this
        intro o ho
        have : ∃ x, ps.get x = o := by
          simp only [Quad.toList, List.mem_cons, List.not_mem_nil, or_false] at ho
          rcases ho with rfl | rfl | rfl | rfl
          exacts [⟨0, rfl⟩, ⟨1, rfl⟩, ⟨2, rfl⟩, ⟨3, rfl⟩]
        obtain ⟨x, rfl⟩ := this
        cases hp : ps.get x with
        | none => rfl
        | some p => simpa using h1 x p hp
  · have hc : adjustChannel code = none := by simp [adjustChannel, h]
    rw [hc]
    simp only [Bool.or_false, decide_eq_true_eq]
    constructor
    · exact .inl
    · rintro (h1 | ⟨c, hc, -⟩)
      · exact h1
      · have := c.isLt; omega

theorem readStep_eq (ps : Quad (Option Profile)) (b : List Byte) (o : Nat) :
    (StepInRange ps b o → ∃ r, readStep b o = some r ∧ stepUsable ps r = true ∧ r.ReadFrom b o) ∧
    (¬ StepInRange ps b o → ∀ r, readStep b o = some r → stepUsable ps r = false) := by
  constructor
  · rintro ⟨h1, h2, h3, h4, h5⟩
    have : ∃ k, stepKind (natAt b o) = some k ∧ k.stored = natAt b o := by
      generalize natAt b o = n at *
      match n, h1 with
      | 0, _ => exact ⟨_, rfl, rfl⟩
      | 1, _ => exact ⟨_, rfl, rfl⟩
      | 2, _ => exact ⟨_, rfl, rfl⟩
    obtain ⟨k, hk, hk'⟩ := this
    unfold readStep
    rw [hk]
    refine ⟨_, rfl, ?_, hk', rfl, rfl, rfl, rfl, rfl, rfl, rfl, rfl, rfl, rfl, rfl⟩
    unfold stepUsable
    cases k with
    | accuracy =>
      obtain ⟨a1, a2, a3, a4, a5, a6, a7, a8, a9, a10, a11, a12, a13, a14⟩ := h4 hk'.symm
      simp only [Bool.and_eq_true, within_iff, decide_eq_true_eq, adjustUsable_iff]
      exact ⟨⟨h2, h3⟩, ⟨⟨⟨⟨⟨⟨⟨a1, a2⟩, a3, a4⟩, a5, a6, a7, a8⟩, a9⟩, a10, a11⟩, a12, a13⟩, a14⟩⟩
    | creep =>
      have := h5 (by rw [← hk']; decide)
      simp only [Bool.and_eq_true, within_iff]
      exact ⟨⟨h2, h3⟩, this⟩
    | start =>
      have := h5 (by rw [← hk']; decide)
      simp only [Bool.and_eq_true, within_iff]
      exact ⟨⟨h2, h3⟩, this⟩
  · intro h r hr
    by_contra hc
    apply h
    have hc : stepUsable ps r = true := by simpa using hc
    have hk : ∃ k, stepKind (natAt b o) = some k := by
      cases hk : stepKind (natAt b o) with
      | none => simp [readStep, hk] at hr
      | some k => exact ⟨k, rfl⟩
    obtain ⟨k, hk⟩ := hk
    simp only [readStep, hk, Option.map_some] at hr
    have hr := Option.some.inj hr
    subst hr
    unfold stepUsable at hc
    have hn : k.stored = natAt b o ∧ natAt b o ≤ 2 := by
      generalize natAt b o = n at *
      unfold stepKind at hk
      split at hk <;> simp at hk <;> subst hk <;> simp [StepKind.stored]
    refine ⟨hn.2, ?_⟩
    cases k with
    | accuracy =>
      simp only [Bool.and_eq_true, within_iff, decide_eq_true_eq, adjustUsable_iff] at hc
      obtain ⟨⟨h2, h3⟩, ⟨⟨⟨⟨⟨⟨⟨a1, a2⟩, a3, a4⟩, a5, a6, a7, a8⟩, a9⟩, a10, a11⟩, a12, a13⟩, a14⟩⟩ := hc
      exact ⟨h2, h3, fun _ => ⟨a1, a2, a3, a4, a5, a6, a7, a8, a9, a10, a11, a12, a13, a14⟩, fun e => absurd hn.1.symm e⟩
    | creep =>
      simp only [Bool.and_eq_true, within_iff] at hc
      exact ⟨hc.1.1, hc.1.2, fun e => by simp [StepKind.stored, e] at hn, fun _ => hc.2⟩
    | start =>
      simp only [Bool.and_eq_true, within_iff] at hc
      exact ⟨hc.1.1, hc.1.2, fun e => by simp [StepKind.stored, e] at hn, fun _ => hc.2⟩

theorem readSteps_inRange {ps : Quad (Option Profile)} {b : List Byte} {slot : Nat} : ∀ (n i : Nat),
    (∀ k, k < n → StepInRange ps b (slot + 5 + 25 * (i + k))) →
    ∃ rs, readSteps ps b slot i n = some rs ∧ rs.length = n ∧
      ∀ (k : Nat) (r : StepRecord), rs[k]? = some r → r.ReadFrom b (slot + 5 + 25 * (i + k))
  | 0, i, _ => ⟨[], rfl, rfl, by simp⟩
  | n + 1, i, h => by
    obtain ⟨r, hr, hu, hf⟩ := (readStep_eq ps b (slot + 5 + 25 * i)).1 (by simpa using h 0 (by omega))
    obtain ⟨rs, hrs, hl, hfs⟩ := readSteps_inRange n (i + 1) fun k hk => by
      have := h (k + 1) (by omega)
      rwa [show i + (k + 1) = i + 1 + k by omega] at this
    refine ⟨r :: rs, by simp [readSteps, hr, hrs, hu], by simp [hl], fun k a ha => ?_⟩
    match k with
    | 0 => simp at ha; subst ha; simpa using hf
    | k + 1 =>
      have := hfs k a (by simpa using ha)
      rwa [show i + (k + 1) = i + 1 + k by omega]

theorem readSteps_outside {ps : Quad (Option Profile)} {b : List Byte} {slot : Nat} : ∀ (n i k : Nat), k < n →
    ¬ StepInRange ps b (slot + 5 + 25 * (i + k)) → readSteps ps b slot i n = none
  | 0, _, _, h, _ => by omega
  | n + 1, i, k, hk, h => by
    unfold readSteps
    split
    · rename_i r rs hr hrs
      match k with
      | 0 =>
        rw [if_neg]
        simpa using (readStep_eq ps b (slot + 5 + 25 * i)).2 (by simpa using h) r hr
      | k + 1 =>
        have := readSteps_outside (ps := ps) (b := b) (slot := slot) n (i + 1) k (by omega)
          (by rwa [show i + 1 + k = i + (k + 1) by omega])
        rw [this] at hrs; simp at hrs
    · rfl

theorem readSlot_inRange {ps : Quad (Option Profile)} {b : List Byte} {o : Nat} (h : SlotInRange ps b o) :
    ∃ tb, readSlot ps b o = some tb ∧ tb.ReadFrom b o := by
  obtain ⟨h1, h2, h3, h4, h5⟩ := h
  obtain ⟨rs, hrs, hl, hf⟩ := readSteps_inRange (natAt b (o + 4)) 0 (by simpa using h5)
  unfold readSlot
  simp only [within_iff, h1, h2, h3, h4, and_self, if_true, hrs, Option.map_some]
  exact ⟨_, rfl, rfl, hl, by simpa using hf, rfl⟩

theorem readSlot_outside {ps : Quad (Option Profile)} {b : List Byte} {o : Nat} (h : ¬ SlotInRange ps b o) :
    readSlot ps b o = none := by
  unfold readSlot
  simp only [within_iff]
  split
  · rename_i hc
    obtain ⟨⟨h1, h2⟩, h3, h4⟩ := hc
    have : ∃ k, k < natAt b (o + 4) ∧ ¬ StepInRange ps b (o + 5 + 25 * k) := by
      by_contra hk
      push Not at hk
      exact h ⟨h1, h2, h3, h4, hk⟩
    obtain ⟨k, hk, hn⟩ := this
    rw [readSteps_outside _ 0 k hk (by simpa using hn)]; rfl
  · rfl

/-- R183 on an image with the identification word: checks 3 to 6 in order. -/
theorem judgeImage_marked {b : List Byte} (h : ImageMarked b) : judgeImage (some b) =
    (if ¬ ImageLong b then .fails .badImage true else if ¬ ImageWhole b then .fails .badImage true
      else match readStation b 6 with
        | none => .fails .badImage false
        | some st => match readProfiles b st.enable with
          | none => .fails .badImage false
          | some ps => .passes st ps) := by
  have hw : (b.length < Config.imageBytes ∨ crc16 ((b.drop 6).take (Config.imageBytes - 6)) ≠ word16 b 4) ↔
      ¬ ImageWhole b := by
    show (b.length < 1433 ∨ crc16 ((b.drop 6).take 1427) ≠ word16 b 4) ↔ _
    rw [not_and_or, not_le]
  unfold ImageMarked at h
  simp only [judgeImage, h, ne_eq, not_true_eq_false, if_false]
  simp only [hw]
  rfl

end Sys2Proof.Machine
end

