-- ==== Sys2Proof/Laws/Measure.lean ====
section
/-! SUPPORT. What rounding, the mean and the spread of a window give (R100, R103). -/

namespace Sys2Proof.Machine

theorem roundHalfAway_eq {num : Int} {den : Nat} {e : Int} (hd : 0 < den) (h : RoundsTo num den e) : roundHalfAway num den = e := by
  unfold RoundsTo at h
  unfold roundHalfAway
  have key : ∀ (a d : Nat) (f : Nat), 0 < d → (2 * ((a : Int) - f * d).natAbs < d ∨ (2 * ((a : Int) - f * d).natAbs = d ∧ a < f * d)) →
      (2 * a + d) / (2 * d) = f := by
    intro a d f hd h
    rw [Nat.div_eq_iff (by omega)]
    have e1 : ((f * d : Nat) : Int) = (f : Int) * d := by push_cast; rfl
    rw [← e1] at h
    have e2 : f * (2 * d) = 2 * (f * d) := by ring
    rw [e2]
    have e3 : (f + 1) * (2 * d) = 2 * (f * d) + 2 * d := by ring
    try rw [e3]
    generalize f * d = p at *
    omega
  have hs : e = e.natAbs ∨ e = -(e.natAbs : Int) := by omega
  have hd' : (0 : Int) < den := by exact_mod_cast hd
  by_cases hn : num < 0
  · rw [if_pos hn]
    have he : e ≤ 0 := by
      by_contra hc
      have : 1 ≤ e := by omega
      have h1 : (den : Int) ≤ e * den := by nlinarith
      generalize e * (den : Int) = p at *
      omega
    have := key num.natAbs den e.natAbs hd (by
      have e1 : e * (den : Int) = -((e.natAbs : Int) * den) := by
        have : e = -(e.natAbs : Int) := by omega
        conv_lhs => rw [this]
        ring
      have e2 : (e * (den:Int)).natAbs = e.natAbs * den := by rw [Int.natAbs_mul]; simp
      rw [e2, e1] at h
      have e3 : ((e.natAbs * den : Nat) : Int) = (e.natAbs : Int) * den := by push_cast; rfl
      rw [← e3] at h ⊢
      generalize e.natAbs * den = p at *
      omega)
    show -(((2 * num.natAbs + den) / (2 * den) : Nat) : Int) = e
    rw [this]; omega
  · rw [if_neg hn]
    have he : 0 ≤ e := by
      by_contra hc
      have : e ≤ -1 := by omega
      have h1 : e * den ≤ -(den : Int) := by nlinarith
      generalize e * (den : Int) = p at *
      omega
    have := key num.natAbs den e.natAbs hd (by
      have e1 : e * (den : Int) = ((e.natAbs : Int) * den) := by
        have : e = (e.natAbs : Int) := by omega
        conv_lhs => rw [this]
      have e2 : (e * (den:Int)).natAbs = e.natAbs * den := by rw [Int.natAbs_mul]; simp
      rw [e2, e1] at h
      have e3 : ((e.natAbs * den : Nat) : Int) = (e.natAbs : Int) * den := by push_cast; rfl
      rw [← e3] at h ⊢
      generalize e.natAbs * den = p at *
      omega)
    show (((2 * num.natAbs + den) / (2 * den) : Nat) : Int) = e
    rw [this]; omega

theorem meanOf_eq {l : List Int} {m : Int} (hl : l ≠ []) (h : RoundsTo l.sum l.length m) : meanOf l = m := by
  have : l.isEmpty = false := by cases l <;> simp_all
  simp [meanOf, this, roundHalfAway_eq (List.length_pos_iff.mpr hl) h]

theorem foldl_max_mem (l : List Int) : ∀ a : Int, (l.foldl max a = a ∨ l.foldl max a ∈ l) ∧ a ≤ l.foldl max a ∧ ∀ e ∈ l, e ≤ l.foldl max a := by
  induction l with
  | nil => intro a; simp
  | cons b l ih =>
    intro a
    obtain ⟨h1, h2, h3⟩ := ih (max a b)
    simp only [List.foldl_cons, List.mem_cons]
    refine ⟨?_, by omega, ?_⟩
    · rcases h1 with h1 | h1
      · rw [h1]; rcases max_choice a b with h | h <;> simp [h]
      · right; right; exact h1
    · rintro e (rfl | h)
      · omega
      · exact h3 e h

theorem foldl_min_mem (l : List Int) : ∀ a : Int, (l.foldl min a = a ∨ l.foldl min a ∈ l) ∧ l.foldl min a ≤ a ∧ ∀ e ∈ l, l.foldl min a ≤ e := by
  induction l with
  | nil => intro a; simp
  | cons b l ih =>
    intro a
    obtain ⟨h1, h2, h3⟩ := ih (min a b)
    simp only [List.foldl_cons, List.mem_cons]
    refine ⟨?_, by omega, ?_⟩
    · rcases h1 with h1 | h1
      · rw [h1]; rcases min_choice a b with h | h <;> simp [h]
      · right; right; exact h1
    · rintro e (rfl | h)
      · omega
      · exact h3 e h

theorem spreadOf_eq {l : List Int} {low high : Int} (hl : low ∈ l) (hh : high ∈ l) (hb : ∀ e ∈ l, low ≤ e ∧ e ≤ high) :
    (spreadOf l : Int) = high - low := by
  cases l with
  | nil => simp at hl
  | cons a l =>
    obtain ⟨a1, a2, a3⟩ := foldl_max_mem l a
    obtain ⟨b1, b2, b3⟩ := foldl_min_mem l a
    have m1 : l.foldl max a ∈ a :: l := by rcases a1 with h | h <;> simp [h]
    have m2 : l.foldl min a ∈ a :: l := by rcases b1 with h | h <;> simp [h]
    have := hb _ m1; have := hb _ m2
    have hh' : high ≤ l.foldl max a := by
      rcases List.mem_cons.mp hh with rfl | h
      · exact a2
      · exact a3 _ h
    have hl' : l.foldl min a ≤ low := by
      rcases List.mem_cons.mp hl with rfl | h
      · exact b2
      · exact b3 _ h
    simp only [spreadOf]; omega

end Sys2Proof.Machine
end

