-- ==== Sys2Proof/Laws/State.lean ====
section
/-! SUPPORT. What each update of one part of the station leaves in place, field by field, all by rfl. -/

namespace Sys2Proof

namespace Quad

variable {α β : Type}

@[simp] theorem get_set_same (q : Quad α) (i : Fin 4) (x : α) : (q.set i x).get i = x := by
  match i with
  | 0 => rfl
  | 1 => rfl
  | 2 => rfl
  | 3 => rfl

theorem get_set_other (q : Quad α) {i j : Fin 4} (x : α) (h : j ≠ i) : (q.set i x).get j = q.get j := by
  match i, j with
  | 0, 1 => rfl
  | 0, 2 => rfl
  | 0, 3 => rfl
  | 1, 0 => rfl
  | 1, 2 => rfl
  | 1, 3 => rfl
  | 2, 0 => rfl
  | 2, 1 => rfl
  | 2, 3 => rfl
  | 3, 0 => rfl
  | 3, 1 => rfl
  | 3, 2 => rfl
  | 0, 0 => exact absurd rfl h
  | 1, 1 => exact absurd rfl h
  | 2, 2 => exact absurd rfl h
  | 3, 3 => exact absurd rfl h

theorem get_set (q : Quad α) (i j : Fin 4) (x : α) : (q.set i x).get j = if j = i then x else q.get j := by
  by_cases h : j = i
  · subst h; simp
  · rw [if_neg h, get_set_other q x h]

@[simp] theorem get_map (f : α → β) (q : Quad α) (i : Fin 4) : (q.map f).get i = f (q.get i) := by
  match i with
  | 0 => rfl
  | 1 => rfl
  | 2 => rfl
  | 3 => rfl

@[simp] theorem get_tabulate (f : Fin 4 → α) (i : Fin 4) : (tabulate f).get i = f i := by
  match i with
  | 0 => rfl
  | 1 => rfl
  | 2 => rfl
  | 3 => rfl

@[simp] theorem get_all4 (x : α) (i : Fin 4) : (all4 x).get i = x := by
  match i with
  | 0 => rfl
  | 1 => rfl
  | 2 => rfl
  | 3 => rfl

/-- Four-fold collections agree when their members do. -/
theorem ext_get {p q : Quad α} (h : ∀ i, p.get i = q.get i) : p = q := by
  cases p; cases q
  have h0 := h 0; have h1 := h 1; have h2 := h 2; have h3 := h 3
  simp only [get] at h0 h1 h2 h3
  subst h0 h1 h2 h3; rfl

@[simp] theorem set_get_self (q : Quad α) (i : Fin 4) : q.set i (q.get i) = q := by
  apply ext_get
  intro j
  rw [get_set]
  by_cases h : j = i
  · subst h; simp
  · simp [h]

@[simp] theorem set_set_same (q : Quad α) (i : Fin 4) (x y : α) : (q.set i x).set i y = q.set i y := by
  match i with
  | 0 => rfl
  | 1 => rfl
  | 2 => rfl
  | 3 => rfl

end Quad

namespace Machine.Station

variable (st : Station)

/-! ### modCtx -/

@[simp] theorem modCtx_cfl (s : Socket) (f : RunCtx → RunCtx) : (st.modCtx s f).cfl = st.cfl := rfl
@[simp] theorem modCtx_lkc (s : Socket) (f : RunCtx → RunCtx) : (st.modCtx s f).lkc = st.lkc := rfl
@[simp] theorem modCtx_bmr (s : Socket) (f : RunCtx → RunCtx) : (st.modCtx s f).bmr = st.bmr := rfl
@[simp] theorem modCtx_notices (s : Socket) (f : RunCtx → RunCtx) : (st.modCtx s f).notices = st.notices := rfl
@[simp] theorem modCtx_gcu (s : Socket) (f : RunCtx → RunCtx) : (st.modCtx s f).gcu = st.gcu := rfl
@[simp] theorem modCtx_inc (s : Socket) (f : RunCtx → RunCtx) : (st.modCtx s f).inc = st.inc := rfl
@[simp] theorem modCtx_cru (s : Socket) (f : RunCtx → RunCtx) : (st.modCtx s f).cru = st.cru := rfl
@[simp] theorem modCtx_mpc (s : Socket) (f : RunCtx → RunCtx) : (st.modCtx s f).mpc = st.mpc := rfl
@[simp] theorem modCtx_slu (s : Socket) (f : RunCtx → RunCtx) : (st.modCtx s f).slu = st.slu := rfl
@[simp] theorem modCtx_rpu (s : Socket) (f : RunCtx → RunCtx) : (st.modCtx s f).rpu = st.rpu := rfl
@[simp] theorem modCtx_stc_joinedMask (s : Socket) (f : RunCtx → RunCtx) : (st.modCtx s f).stc.joinedMask = st.stc.joinedMask := rfl
@[simp] theorem modCtx_stc_classes (s : Socket) (f : RunCtx → RunCtx) : (st.modCtx s f).stc.classes = st.stc.classes := rfl
@[simp] theorem modCtx_stc_joinPlaced (s : Socket) (f : RunCtx → RunCtx) : (st.modCtx s f).stc.joinPlaced = st.stc.joinPlaced := rfl
@[simp] theorem modCtx_stc_slot (s : Socket) (f : RunCtx → RunCtx) : (st.modCtx s f).stc.slot = st.stc.slot := rfl
@[simp] theorem modCtx_stc_step (s : Socket) (f : RunCtx → RunCtx) : (st.modCtx s f).stc.step = st.stc.step := rfl
@[simp] theorem modCtx_stc_runEnded (s : Socket) (f : RunCtx → RunCtx) : (st.modCtx s f).stc.runEnded = st.stc.runEnded := rfl
@[simp] theorem modCtx_stc_muted (s : Socket) (f : RunCtx → RunCtx) : (st.modCtx s f).stc.muted = st.stc.muted := rfl
@[simp] theorem modCtx_stc_inbox (s : Socket) (f : RunCtx → RunCtx) : (st.modCtx s f).stc.inbox = st.stc.inbox := rfl
theorem ctx_modCtx (s j : Socket) (f : RunCtx → RunCtx) :
    (st.modCtx s f).ctx j = if j = s then f (st.ctx s) else st.ctx j := Quad.get_set _ _ _ _
@[simp] theorem ctx_modCtx_same (s : Socket) (f : RunCtx → RunCtx) : (st.modCtx s f).ctx s = f (st.ctx s) :=
  Quad.get_set_same _ _ _
theorem ctx_modCtx_other {s j : Socket} (f : RunCtx → RunCtx) (h : j ≠ s) : (st.modCtx s f).ctx j = st.ctx j :=
  Quad.get_set_other _ _ h

@[simp] theorem incSocket_modCtx (s j : Socket) (f : RunCtx → RunCtx) : (st.modCtx s f).incSocket j = st.incSocket j := rfl
@[simp] theorem gcuSocket_modCtx (s j : Socket) (f : RunCtx → RunCtx) : (st.modCtx s f).gcuSocket j = st.gcuSocket j := rfl
@[simp] theorem cruSocket_modCtx (s j : Socket) (f : RunCtx → RunCtx) : (st.modCtx s f).cruSocket j = st.cruSocket j := rfl
@[simp] theorem port_modCtx (s j : Socket) (f : RunCtx → RunCtx) : (st.modCtx s f).port j = st.port j := rfl
@[simp] theorem sluSocket_modCtx (s j : Socket) (f : RunCtx → RunCtx) : (st.modCtx s f).sluSocket j = st.sluSocket j := rfl

/-! ### modInc -/

@[simp] theorem modInc_cfl (s : Socket) (f : IncSocket → IncSocket) : (st.modInc s f).cfl = st.cfl := rfl
@[simp] theorem modInc_lkc (s : Socket) (f : IncSocket → IncSocket) : (st.modInc s f).lkc = st.lkc := rfl
@[simp] theorem modInc_bmr (s : Socket) (f : IncSocket → IncSocket) : (st.modInc s f).bmr = st.bmr := rfl
@[simp] theorem modInc_notices (s : Socket) (f : IncSocket → IncSocket) : (st.modInc s f).notices = st.notices := rfl
@[simp] theorem modInc_stc (s : Socket) (f : IncSocket → IncSocket) : (st.modInc s f).stc = st.stc := rfl
@[simp] theorem modInc_gcu (s : Socket) (f : IncSocket → IncSocket) : (st.modInc s f).gcu = st.gcu := rfl
@[simp] theorem modInc_cru (s : Socket) (f : IncSocket → IncSocket) : (st.modInc s f).cru = st.cru := rfl
@[simp] theorem modInc_mpc (s : Socket) (f : IncSocket → IncSocket) : (st.modInc s f).mpc = st.mpc := rfl
@[simp] theorem modInc_slu (s : Socket) (f : IncSocket → IncSocket) : (st.modInc s f).slu = st.slu := rfl
@[simp] theorem modInc_rpu (s : Socket) (f : IncSocket → IncSocket) : (st.modInc s f).rpu = st.rpu := rfl
@[simp] theorem modInc_inc_idle (s : Socket) (f : IncSocket → IncSocket) : (st.modInc s f).inc.idle = st.inc.idle := rfl
@[simp] theorem modInc_inc_nextPreset (s : Socket) (f : IncSocket → IncSocket) : (st.modInc s f).inc.nextPreset = st.inc.nextPreset := rfl
@[simp] theorem modInc_inc_inbox (s : Socket) (f : IncSocket → IncSocket) : (st.modInc s f).inc.inbox = st.inc.inbox := rfl
theorem incSocket_modInc (s j : Socket) (f : IncSocket → IncSocket) :
    (st.modInc s f).incSocket j = if j = s then f (st.incSocket s) else st.incSocket j := Quad.get_set _ _ _ _
@[simp] theorem incSocket_modInc_same (s : Socket) (f : IncSocket → IncSocket) : (st.modInc s f).incSocket s = f (st.incSocket s) :=
  Quad.get_set_same _ _ _
theorem incSocket_modInc_other {s j : Socket} (f : IncSocket → IncSocket) (h : j ≠ s) : (st.modInc s f).incSocket j = st.incSocket j :=
  Quad.get_set_other _ _ h

@[simp] theorem ctx_modInc (s j : Socket) (f : IncSocket → IncSocket) : (st.modInc s f).ctx j = st.ctx j := rfl
@[simp] theorem gcuSocket_modInc (s j : Socket) (f : IncSocket → IncSocket) : (st.modInc s f).gcuSocket j = st.gcuSocket j := rfl
@[simp] theorem cruSocket_modInc (s j : Socket) (f : IncSocket → IncSocket) : (st.modInc s f).cruSocket j = st.cruSocket j := rfl
@[simp] theorem port_modInc (s j : Socket) (f : IncSocket → IncSocket) : (st.modInc s f).port j = st.port j := rfl
@[simp] theorem sluSocket_modInc (s j : Socket) (f : IncSocket → IncSocket) : (st.modInc s f).sluSocket j = st.sluSocket j := rfl

/-! ### modGcu -/

@[simp] theorem modGcu_cfl (s : Socket) (f : GcuSocket → GcuSocket) : (st.modGcu s f).cfl = st.cfl := rfl
@[simp] theorem modGcu_lkc (s : Socket) (f : GcuSocket → GcuSocket) : (st.modGcu s f).lkc = st.lkc := rfl
@[simp] theorem modGcu_bmr (s : Socket) (f : GcuSocket → GcuSocket) : (st.modGcu s f).bmr = st.bmr := rfl
@[simp] theorem modGcu_notices (s : Socket) (f : GcuSocket → GcuSocket) : (st.modGcu s f).notices = st.notices := rfl
@[simp] theorem modGcu_stc (s : Socket) (f : GcuSocket → GcuSocket) : (st.modGcu s f).stc = st.stc := rfl
@[simp] theorem modGcu_inc (s : Socket) (f : GcuSocket → GcuSocket) : (st.modGcu s f).inc = st.inc := rfl
@[simp] theorem modGcu_cru (s : Socket) (f : GcuSocket → GcuSocket) : (st.modGcu s f).cru = st.cru := rfl
@[simp] theorem modGcu_mpc (s : Socket) (f : GcuSocket → GcuSocket) : (st.modGcu s f).mpc = st.mpc := rfl
@[simp] theorem modGcu_slu (s : Socket) (f : GcuSocket → GcuSocket) : (st.modGcu s f).slu = st.slu := rfl
@[simp] theorem modGcu_rpu (s : Socket) (f : GcuSocket → GcuSocket) : (st.modGcu s f).rpu = st.rpu := rfl
@[simp] theorem modGcu_gcu_refCount (s : Socket) (f : GcuSocket → GcuSocket) : (st.modGcu s f).gcu.refCount = st.gcu.refCount := rfl
@[simp] theorem modGcu_gcu_rdy (s : Socket) (f : GcuSocket → GcuSocket) : (st.modGcu s f).gcu.rdy = st.gcu.rdy := rfl
@[simp] theorem modGcu_gcu_inbox (s : Socket) (f : GcuSocket → GcuSocket) : (st.modGcu s f).gcu.inbox = st.gcu.inbox := rfl
theorem gcuSocket_modGcu (s j : Socket) (f : GcuSocket → GcuSocket) :
    (st.modGcu s f).gcuSocket j = if j = s then f (st.gcuSocket s) else st.gcuSocket j := Quad.get_set _ _ _ _
@[simp] theorem gcuSocket_modGcu_same (s : Socket) (f : GcuSocket → GcuSocket) : (st.modGcu s f).gcuSocket s = f (st.gcuSocket s) :=
  Quad.get_set_same _ _ _
theorem gcuSocket_modGcu_other {s j : Socket} (f : GcuSocket → GcuSocket) (h : j ≠ s) : (st.modGcu s f).gcuSocket j = st.gcuSocket j :=
  Quad.get_set_other _ _ h

@[simp] theorem ctx_modGcu (s j : Socket) (f : GcuSocket → GcuSocket) : (st.modGcu s f).ctx j = st.ctx j := rfl
@[simp] theorem incSocket_modGcu (s j : Socket) (f : GcuSocket → GcuSocket) : (st.modGcu s f).incSocket j = st.incSocket j := rfl
@[simp] theorem cruSocket_modGcu (s j : Socket) (f : GcuSocket → GcuSocket) : (st.modGcu s f).cruSocket j = st.cruSocket j := rfl
@[simp] theorem port_modGcu (s j : Socket) (f : GcuSocket → GcuSocket) : (st.modGcu s f).port j = st.port j := rfl
@[simp] theorem sluSocket_modGcu (s j : Socket) (f : GcuSocket → GcuSocket) : (st.modGcu s f).sluSocket j = st.sluSocket j := rfl

/-! ### modCru -/

@[simp] theorem modCru_cfl (s : Socket) (f : CruSocket → CruSocket) : (st.modCru s f).cfl = st.cfl := rfl
@[simp] theorem modCru_lkc (s : Socket) (f : CruSocket → CruSocket) : (st.modCru s f).lkc = st.lkc := rfl
@[simp] theorem modCru_bmr (s : Socket) (f : CruSocket → CruSocket) : (st.modCru s f).bmr = st.bmr := rfl
@[simp] theorem modCru_notices (s : Socket) (f : CruSocket → CruSocket) : (st.modCru s f).notices = st.notices := rfl
@[simp] theorem modCru_stc (s : Socket) (f : CruSocket → CruSocket) : (st.modCru s f).stc = st.stc := rfl
@[simp] theorem modCru_gcu (s : Socket) (f : CruSocket → CruSocket) : (st.modCru s f).gcu = st.gcu := rfl
@[simp] theorem modCru_inc (s : Socket) (f : CruSocket → CruSocket) : (st.modCru s f).inc = st.inc := rfl
@[simp] theorem modCru_mpc (s : Socket) (f : CruSocket → CruSocket) : (st.modCru s f).mpc = st.mpc := rfl
@[simp] theorem modCru_slu (s : Socket) (f : CruSocket → CruSocket) : (st.modCru s f).slu = st.slu := rfl
@[simp] theorem modCru_rpu (s : Socket) (f : CruSocket → CruSocket) : (st.modCru s f).rpu = st.rpu := rfl
@[simp] theorem modCru_cru_inbox (s : Socket) (f : CruSocket → CruSocket) : (st.modCru s f).cru.inbox = st.cru.inbox := rfl
theorem cruSocket_modCru (s j : Socket) (f : CruSocket → CruSocket) :
    (st.modCru s f).cruSocket j = if j = s then f (st.cruSocket s) else st.cruSocket j := Quad.get_set _ _ _ _
@[simp] theorem cruSocket_modCru_same (s : Socket) (f : CruSocket → CruSocket) : (st.modCru s f).cruSocket s = f (st.cruSocket s) :=
  Quad.get_set_same _ _ _
theorem cruSocket_modCru_other {s j : Socket} (f : CruSocket → CruSocket) (h : j ≠ s) : (st.modCru s f).cruSocket j = st.cruSocket j :=
  Quad.get_set_other _ _ h

@[simp] theorem ctx_modCru (s j : Socket) (f : CruSocket → CruSocket) : (st.modCru s f).ctx j = st.ctx j := rfl
@[simp] theorem incSocket_modCru (s j : Socket) (f : CruSocket → CruSocket) : (st.modCru s f).incSocket j = st.incSocket j := rfl
@[simp] theorem gcuSocket_modCru (s j : Socket) (f : CruSocket → CruSocket) : (st.modCru s f).gcuSocket j = st.gcuSocket j := rfl
@[simp] theorem port_modCru (s j : Socket) (f : CruSocket → CruSocket) : (st.modCru s f).port j = st.port j := rfl
@[simp] theorem sluSocket_modCru (s j : Socket) (f : CruSocket → CruSocket) : (st.modCru s f).sluSocket j = st.sluSocket j := rfl

/-! ### modPort -/

@[simp] theorem modPort_cfl (s : Socket) (f : Port → Port) : (st.modPort s f).cfl = st.cfl := rfl
@[simp] theorem modPort_lkc (s : Socket) (f : Port → Port) : (st.modPort s f).lkc = st.lkc := rfl
@[simp] theorem modPort_bmr (s : Socket) (f : Port → Port) : (st.modPort s f).bmr = st.bmr := rfl
@[simp] theorem modPort_notices (s : Socket) (f : Port → Port) : (st.modPort s f).notices = st.notices := rfl
@[simp] theorem modPort_stc (s : Socket) (f : Port → Port) : (st.modPort s f).stc = st.stc := rfl
@[simp] theorem modPort_gcu (s : Socket) (f : Port → Port) : (st.modPort s f).gcu = st.gcu := rfl
@[simp] theorem modPort_inc (s : Socket) (f : Port → Port) : (st.modPort s f).inc = st.inc := rfl
@[simp] theorem modPort_cru (s : Socket) (f : Port → Port) : (st.modPort s f).cru = st.cru := rfl
@[simp] theorem modPort_slu (s : Socket) (f : Port → Port) : (st.modPort s f).slu = st.slu := rfl
@[simp] theorem modPort_rpu (s : Socket) (f : Port → Port) : (st.modPort s f).rpu = st.rpu := rfl
@[simp] theorem modPort_mpc_nextBurst (s : Socket) (f : Port → Port) : (st.modPort s f).mpc.nextBurst = st.mpc.nextBurst := rfl
@[simp] theorem modPort_mpc_inbox (s : Socket) (f : Port → Port) : (st.modPort s f).mpc.inbox = st.mpc.inbox := rfl
theorem port_modPort (s j : Socket) (f : Port → Port) :
    (st.modPort s f).port j = if j = s then f (st.port s) else st.port j := Quad.get_set _ _ _ _
@[simp] theorem port_modPort_same (s : Socket) (f : Port → Port) : (st.modPort s f).port s = f (st.port s) :=
  Quad.get_set_same _ _ _
theorem port_modPort_other {s j : Socket} (f : Port → Port) (h : j ≠ s) : (st.modPort s f).port j = st.port j :=
  Quad.get_set_other _ _ h

@[simp] theorem ctx_modPort (s j : Socket) (f : Port → Port) : (st.modPort s f).ctx j = st.ctx j := rfl
@[simp] theorem incSocket_modPort (s j : Socket) (f : Port → Port) : (st.modPort s f).incSocket j = st.incSocket j := rfl
@[simp] theorem gcuSocket_modPort (s j : Socket) (f : Port → Port) : (st.modPort s f).gcuSocket j = st.gcuSocket j := rfl
@[simp] theorem cruSocket_modPort (s j : Socket) (f : Port → Port) : (st.modPort s f).cruSocket j = st.cruSocket j := rfl
@[simp] theorem sluSocket_modPort (s j : Socket) (f : Port → Port) : (st.modPort s f).sluSocket j = st.sluSocket j := rfl

/-! ### modSlu -/

@[simp] theorem modSlu_cfl (s : Socket) (f : SluSocket → SluSocket) : (st.modSlu s f).cfl = st.cfl := rfl
@[simp] theorem modSlu_lkc (s : Socket) (f : SluSocket → SluSocket) : (st.modSlu s f).lkc = st.lkc := rfl
@[simp] theorem modSlu_bmr (s : Socket) (f : SluSocket → SluSocket) : (st.modSlu s f).bmr = st.bmr := rfl
@[simp] theorem modSlu_notices (s : Socket) (f : SluSocket → SluSocket) : (st.modSlu s f).notices = st.notices := rfl
@[simp] theorem modSlu_stc (s : Socket) (f : SluSocket → SluSocket) : (st.modSlu s f).stc = st.stc := rfl
@[simp] theorem modSlu_gcu (s : Socket) (f : SluSocket → SluSocket) : (st.modSlu s f).gcu = st.gcu := rfl
@[simp] theorem modSlu_inc (s : Socket) (f : SluSocket → SluSocket) : (st.modSlu s f).inc = st.inc := rfl
@[simp] theorem modSlu_cru (s : Socket) (f : SluSocket → SluSocket) : (st.modSlu s f).cru = st.cru := rfl
@[simp] theorem modSlu_mpc (s : Socket) (f : SluSocket → SluSocket) : (st.modSlu s f).mpc = st.mpc := rfl
@[simp] theorem modSlu_rpu (s : Socket) (f : SluSocket → SluSocket) : (st.modSlu s f).rpu = st.rpu := rfl
@[simp] theorem modSlu_slu_inbox (s : Socket) (f : SluSocket → SluSocket) : (st.modSlu s f).slu.inbox = st.slu.inbox := rfl
theorem sluSocket_modSlu (s j : Socket) (f : SluSocket → SluSocket) :
    (st.modSlu s f).sluSocket j = if j = s then f (st.sluSocket s) else st.sluSocket j := Quad.get_set _ _ _ _
@[simp] theorem sluSocket_modSlu_same (s : Socket) (f : SluSocket → SluSocket) : (st.modSlu s f).sluSocket s = f (st.sluSocket s) :=
  Quad.get_set_same _ _ _
theorem sluSocket_modSlu_other {s j : Socket} (f : SluSocket → SluSocket) (h : j ≠ s) : (st.modSlu s f).sluSocket j = st.sluSocket j :=
  Quad.get_set_other _ _ h

@[simp] theorem ctx_modSlu (s j : Socket) (f : SluSocket → SluSocket) : (st.modSlu s f).ctx j = st.ctx j := rfl
@[simp] theorem incSocket_modSlu (s j : Socket) (f : SluSocket → SluSocket) : (st.modSlu s f).incSocket j = st.incSocket j := rfl
@[simp] theorem gcuSocket_modSlu (s j : Socket) (f : SluSocket → SluSocket) : (st.modSlu s f).gcuSocket j = st.gcuSocket j := rfl
@[simp] theorem cruSocket_modSlu (s j : Socket) (f : SluSocket → SluSocket) : (st.modSlu s f).cruSocket j = st.cruSocket j := rfl
@[simp] theorem port_modSlu (s j : Socket) (f : SluSocket → SluSocket) : (st.modSlu s f).port j = st.port j := rfl

/-! ### tellStc -/

@[simp] theorem tellStc_cfl (m : StcMsg) : (st.tellStc m).cfl = st.cfl := rfl
@[simp] theorem tellStc_lkc (m : StcMsg) : (st.tellStc m).lkc = st.lkc := rfl
@[simp] theorem tellStc_bmr (m : StcMsg) : (st.tellStc m).bmr = st.bmr := rfl
@[simp] theorem tellStc_notices (m : StcMsg) : (st.tellStc m).notices = st.notices := rfl
@[simp] theorem tellStc_gcu (m : StcMsg) : (st.tellStc m).gcu = st.gcu := rfl
@[simp] theorem tellStc_inc (m : StcMsg) : (st.tellStc m).inc = st.inc := rfl
@[simp] theorem tellStc_cru (m : StcMsg) : (st.tellStc m).cru = st.cru := rfl
@[simp] theorem tellStc_mpc (m : StcMsg) : (st.tellStc m).mpc = st.mpc := rfl
@[simp] theorem tellStc_slu (m : StcMsg) : (st.tellStc m).slu = st.slu := rfl
@[simp] theorem tellStc_rpu (m : StcMsg) : (st.tellStc m).rpu = st.rpu := rfl
@[simp] theorem tellStc_stc_ctx (m : StcMsg) : (st.tellStc m).stc.ctx = st.stc.ctx := rfl
@[simp] theorem tellStc_stc_joinedMask (m : StcMsg) : (st.tellStc m).stc.joinedMask = st.stc.joinedMask := rfl
@[simp] theorem tellStc_stc_classes (m : StcMsg) : (st.tellStc m).stc.classes = st.stc.classes := rfl
@[simp] theorem tellStc_stc_joinPlaced (m : StcMsg) : (st.tellStc m).stc.joinPlaced = st.stc.joinPlaced := rfl
@[simp] theorem tellStc_stc_slot (m : StcMsg) : (st.tellStc m).stc.slot = st.stc.slot := rfl
@[simp] theorem tellStc_stc_step (m : StcMsg) : (st.tellStc m).stc.step = st.stc.step := rfl
@[simp] theorem tellStc_stc_runEnded (m : StcMsg) : (st.tellStc m).stc.runEnded = st.stc.runEnded := rfl
@[simp] theorem tellStc_stc_muted (m : StcMsg) : (st.tellStc m).stc.muted = st.stc.muted := rfl
@[simp] theorem tellStc_stc_inbox (m : StcMsg) : (st.tellStc m).stc.inbox = st.stc.inbox ++ [m] := rfl
@[simp] theorem ctx_tellStc (j : Socket) (m : StcMsg) : (st.tellStc m).ctx j = st.ctx j := rfl
@[simp] theorem incSocket_tellStc (j : Socket) (m : StcMsg) : (st.tellStc m).incSocket j = st.incSocket j := rfl
@[simp] theorem gcuSocket_tellStc (j : Socket) (m : StcMsg) : (st.tellStc m).gcuSocket j = st.gcuSocket j := rfl
@[simp] theorem cruSocket_tellStc (j : Socket) (m : StcMsg) : (st.tellStc m).cruSocket j = st.cruSocket j := rfl
@[simp] theorem port_tellStc (j : Socket) (m : StcMsg) : (st.tellStc m).port j = st.port j := rfl
@[simp] theorem sluSocket_tellStc (j : Socket) (m : StcMsg) : (st.tellStc m).sluSocket j = st.sluSocket j := rfl

/-! ### tellGcu -/

@[simp] theorem tellGcu_cfl (m : GcuMsg) : (st.tellGcu m).cfl = st.cfl := rfl
@[simp] theorem tellGcu_lkc (m : GcuMsg) : (st.tellGcu m).lkc = st.lkc := rfl
@[simp] theorem tellGcu_bmr (m : GcuMsg) : (st.tellGcu m).bmr = st.bmr := rfl
@[simp] theorem tellGcu_notices (m : GcuMsg) : (st.tellGcu m).notices = st.notices := rfl
@[simp] theorem tellGcu_stc (m : GcuMsg) : (st.tellGcu m).stc = st.stc := rfl
@[simp] theorem tellGcu_inc (m : GcuMsg) : (st.tellGcu m).inc = st.inc := rfl
@[simp] theorem tellGcu_cru (m : GcuMsg) : (st.tellGcu m).cru = st.cru := rfl
@[simp] theorem tellGcu_mpc (m : GcuMsg) : (st.tellGcu m).mpc = st.mpc := rfl
@[simp] theorem tellGcu_slu (m : GcuMsg) : (st.tellGcu m).slu = st.slu := rfl
@[simp] theorem tellGcu_rpu (m : GcuMsg) : (st.tellGcu m).rpu = st.rpu := rfl
@[simp] theorem tellGcu_gcu_refCount (m : GcuMsg) : (st.tellGcu m).gcu.refCount = st.gcu.refCount := rfl
@[simp] theorem tellGcu_gcu_rdy (m : GcuMsg) : (st.tellGcu m).gcu.rdy = st.gcu.rdy := rfl
@[simp] theorem tellGcu_gcu_sockets (m : GcuMsg) : (st.tellGcu m).gcu.sockets = st.gcu.sockets := rfl
@[simp] theorem tellGcu_gcu_inbox (m : GcuMsg) : (st.tellGcu m).gcu.inbox = st.gcu.inbox ++ [m] := rfl
@[simp] theorem ctx_tellGcu (j : Socket) (m : GcuMsg) : (st.tellGcu m).ctx j = st.ctx j := rfl
@[simp] theorem incSocket_tellGcu (j : Socket) (m : GcuMsg) : (st.tellGcu m).incSocket j = st.incSocket j := rfl
@[simp] theorem gcuSocket_tellGcu (j : Socket) (m : GcuMsg) : (st.tellGcu m).gcuSocket j = st.gcuSocket j := rfl
@[simp] theorem cruSocket_tellGcu (j : Socket) (m : GcuMsg) : (st.tellGcu m).cruSocket j = st.cruSocket j := rfl
@[simp] theorem port_tellGcu (j : Socket) (m : GcuMsg) : (st.tellGcu m).port j = st.port j := rfl
@[simp] theorem sluSocket_tellGcu (j : Socket) (m : GcuMsg) : (st.tellGcu m).sluSocket j = st.sluSocket j := rfl

/-! ### tellInc -/

@[simp] theorem tellInc_cfl (m : IncMsg) : (st.tellInc m).cfl = st.cfl := rfl
@[simp] theorem tellInc_lkc (m : IncMsg) : (st.tellInc m).lkc = st.lkc := rfl
@[simp] theorem tellInc_bmr (m : IncMsg) : (st.tellInc m).bmr = st.bmr := rfl
@[simp] theorem tellInc_notices (m : IncMsg) : (st.tellInc m).notices = st.notices := rfl
@[simp] theorem tellInc_stc (m : IncMsg) : (st.tellInc m).stc = st.stc := rfl
@[simp] theorem tellInc_gcu (m : IncMsg) : (st.tellInc m).gcu = st.gcu := rfl
@[simp] theorem tellInc_cru (m : IncMsg) : (st.tellInc m).cru = st.cru := rfl
@[simp] theorem tellInc_mpc (m : IncMsg) : (st.tellInc m).mpc = st.mpc := rfl
@[simp] theorem tellInc_slu (m : IncMsg) : (st.tellInc m).slu = st.slu := rfl
@[simp] theorem tellInc_rpu (m : IncMsg) : (st.tellInc m).rpu = st.rpu := rfl
@[simp] theorem tellInc_inc_sockets (m : IncMsg) : (st.tellInc m).inc.sockets = st.inc.sockets := rfl
@[simp] theorem tellInc_inc_idle (m : IncMsg) : (st.tellInc m).inc.idle = st.inc.idle := rfl
@[simp] theorem tellInc_inc_nextPreset (m : IncMsg) : (st.tellInc m).inc.nextPreset = st.inc.nextPreset := rfl
@[simp] theorem tellInc_inc_inbox (m : IncMsg) : (st.tellInc m).inc.inbox = st.inc.inbox ++ [m] := rfl
@[simp] theorem ctx_tellInc (j : Socket) (m : IncMsg) : (st.tellInc m).ctx j = st.ctx j := rfl
@[simp] theorem incSocket_tellInc (j : Socket) (m : IncMsg) : (st.tellInc m).incSocket j = st.incSocket j := rfl
@[simp] theorem gcuSocket_tellInc (j : Socket) (m : IncMsg) : (st.tellInc m).gcuSocket j = st.gcuSocket j := rfl
@[simp] theorem cruSocket_tellInc (j : Socket) (m : IncMsg) : (st.tellInc m).cruSocket j = st.cruSocket j := rfl
@[simp] theorem port_tellInc (j : Socket) (m : IncMsg) : (st.tellInc m).port j = st.port j := rfl
@[simp] theorem sluSocket_tellInc (j : Socket) (m : IncMsg) : (st.tellInc m).sluSocket j = st.sluSocket j := rfl

/-! ### tellCru -/

@[simp] theorem tellCru_cfl (m : CruMsg) : (st.tellCru m).cfl = st.cfl := rfl
@[simp] theorem tellCru_lkc (m : CruMsg) : (st.tellCru m).lkc = st.lkc := rfl
@[simp] theorem tellCru_bmr (m : CruMsg) : (st.tellCru m).bmr = st.bmr := rfl
@[simp] theorem tellCru_notices (m : CruMsg) : (st.tellCru m).notices = st.notices := rfl
@[simp] theorem tellCru_stc (m : CruMsg) : (st.tellCru m).stc = st.stc := rfl
@[simp] theorem tellCru_gcu (m : CruMsg) : (st.tellCru m).gcu = st.gcu := rfl
@[simp] theorem tellCru_inc (m : CruMsg) : (st.tellCru m).inc = st.inc := rfl
@[simp] theorem tellCru_mpc (m : CruMsg) : (st.tellCru m).mpc = st.mpc := rfl
@[simp] theorem tellCru_slu (m : CruMsg) : (st.tellCru m).slu = st.slu := rfl
@[simp] theorem tellCru_rpu (m : CruMsg) : (st.tellCru m).rpu = st.rpu := rfl
@[simp] theorem tellCru_cru_sockets (m : CruMsg) : (st.tellCru m).cru.sockets = st.cru.sockets := rfl
@[simp] theorem tellCru_cru_inbox (m : CruMsg) : (st.tellCru m).cru.inbox = st.cru.inbox ++ [m] := rfl
@[simp] theorem ctx_tellCru (j : Socket) (m : CruMsg) : (st.tellCru m).ctx j = st.ctx j := rfl
@[simp] theorem incSocket_tellCru (j : Socket) (m : CruMsg) : (st.tellCru m).incSocket j = st.incSocket j := rfl
@[simp] theorem gcuSocket_tellCru (j : Socket) (m : CruMsg) : (st.tellCru m).gcuSocket j = st.gcuSocket j := rfl
@[simp] theorem cruSocket_tellCru (j : Socket) (m : CruMsg) : (st.tellCru m).cruSocket j = st.cruSocket j := rfl
@[simp] theorem port_tellCru (j : Socket) (m : CruMsg) : (st.tellCru m).port j = st.port j := rfl
@[simp] theorem sluSocket_tellCru (j : Socket) (m : CruMsg) : (st.tellCru m).sluSocket j = st.sluSocket j := rfl

/-! ### tellMpc -/

@[simp] theorem tellMpc_cfl (m : MpcMsg) : (st.tellMpc m).cfl = st.cfl := rfl
@[simp] theorem tellMpc_lkc (m : MpcMsg) : (st.tellMpc m).lkc = st.lkc := rfl
@[simp] theorem tellMpc_bmr (m : MpcMsg) : (st.tellMpc m).bmr = st.bmr := rfl
@[simp] theorem tellMpc_notices (m : MpcMsg) : (st.tellMpc m).notices = st.notices := rfl
@[simp] theorem tellMpc_stc (m : MpcMsg) : (st.tellMpc m).stc = st.stc := rfl
@[simp] theorem tellMpc_gcu (m : MpcMsg) : (st.tellMpc m).gcu = st.gcu := rfl
@[simp] theorem tellMpc_inc (m : MpcMsg) : (st.tellMpc m).inc = st.inc := rfl
@[simp] theorem tellMpc_cru (m : MpcMsg) : (st.tellMpc m).cru = st.cru := rfl
@[simp] theorem tellMpc_slu (m : MpcMsg) : (st.tellMpc m).slu = st.slu := rfl
@[simp] theorem tellMpc_rpu (m : MpcMsg) : (st.tellMpc m).rpu = st.rpu := rfl
@[simp] theorem tellMpc_mpc_ports (m : MpcMsg) : (st.tellMpc m).mpc.ports = st.mpc.ports := rfl
@[simp] theorem tellMpc_mpc_nextBurst (m : MpcMsg) : (st.tellMpc m).mpc.nextBurst = st.mpc.nextBurst := rfl
@[simp] theorem tellMpc_mpc_inbox (m : MpcMsg) : (st.tellMpc m).mpc.inbox = st.mpc.inbox ++ [m] := rfl
@[simp] theorem ctx_tellMpc (j : Socket) (m : MpcMsg) : (st.tellMpc m).ctx j = st.ctx j := rfl
@[simp] theorem incSocket_tellMpc (j : Socket) (m : MpcMsg) : (st.tellMpc m).incSocket j = st.incSocket j := rfl
@[simp] theorem gcuSocket_tellMpc (j : Socket) (m : MpcMsg) : (st.tellMpc m).gcuSocket j = st.gcuSocket j := rfl
@[simp] theorem cruSocket_tellMpc (j : Socket) (m : MpcMsg) : (st.tellMpc m).cruSocket j = st.cruSocket j := rfl
@[simp] theorem port_tellMpc (j : Socket) (m : MpcMsg) : (st.tellMpc m).port j = st.port j := rfl
@[simp] theorem sluSocket_tellMpc (j : Socket) (m : MpcMsg) : (st.tellMpc m).sluSocket j = st.sluSocket j := rfl

/-! ### tellSlu -/

@[simp] theorem tellSlu_cfl (m : SluMsg) : (st.tellSlu m).cfl = st.cfl := rfl
@[simp] theorem tellSlu_lkc (m : SluMsg) : (st.tellSlu m).lkc = st.lkc := rfl
@[simp] theorem tellSlu_bmr (m : SluMsg) : (st.tellSlu m).bmr = st.bmr := rfl
@[simp] theorem tellSlu_notices (m : SluMsg) : (st.tellSlu m).notices = st.notices := rfl
@[simp] theorem tellSlu_stc (m : SluMsg) : (st.tellSlu m).stc = st.stc := rfl
@[simp] theorem tellSlu_gcu (m : SluMsg) : (st.tellSlu m).gcu = st.gcu := rfl
@[simp] theorem tellSlu_inc (m : SluMsg) : (st.tellSlu m).inc = st.inc := rfl
@[simp] theorem tellSlu_cru (m : SluMsg) : (st.tellSlu m).cru = st.cru := rfl
@[simp] theorem tellSlu_mpc (m : SluMsg) : (st.tellSlu m).mpc = st.mpc := rfl
@[simp] theorem tellSlu_rpu (m : SluMsg) : (st.tellSlu m).rpu = st.rpu := rfl
@[simp] theorem tellSlu_slu_sockets (m : SluMsg) : (st.tellSlu m).slu.sockets = st.slu.sockets := rfl
@[simp] theorem tellSlu_slu_inbox (m : SluMsg) : (st.tellSlu m).slu.inbox = st.slu.inbox ++ [m] := rfl
@[simp] theorem ctx_tellSlu (j : Socket) (m : SluMsg) : (st.tellSlu m).ctx j = st.ctx j := rfl
@[simp] theorem incSocket_tellSlu (j : Socket) (m : SluMsg) : (st.tellSlu m).incSocket j = st.incSocket j := rfl
@[simp] theorem gcuSocket_tellSlu (j : Socket) (m : SluMsg) : (st.tellSlu m).gcuSocket j = st.gcuSocket j := rfl
@[simp] theorem cruSocket_tellSlu (j : Socket) (m : SluMsg) : (st.tellSlu m).cruSocket j = st.cruSocket j := rfl
@[simp] theorem port_tellSlu (j : Socket) (m : SluMsg) : (st.tellSlu m).port j = st.port j := rfl
@[simp] theorem sluSocket_tellSlu (j : Socket) (m : SluMsg) : (st.tellSlu m).sluSocket j = st.sluSocket j := rfl

/-! ### tellAll -/

@[simp] theorem tellAll_cfl (n : RunNotice) : (st.tellAll n).cfl = st.cfl := rfl
@[simp] theorem tellAll_lkc (n : RunNotice) : (st.tellAll n).lkc = st.lkc := rfl
@[simp] theorem tellAll_bmr (n : RunNotice) : (st.tellAll n).bmr = st.bmr := rfl
@[simp] theorem tellAll_stc (n : RunNotice) : (st.tellAll n).stc = st.stc := rfl
@[simp] theorem tellAll_gcu (n : RunNotice) : (st.tellAll n).gcu = st.gcu := rfl
@[simp] theorem tellAll_inc (n : RunNotice) : (st.tellAll n).inc = st.inc := rfl
@[simp] theorem tellAll_cru (n : RunNotice) : (st.tellAll n).cru = st.cru := rfl
@[simp] theorem tellAll_mpc (n : RunNotice) : (st.tellAll n).mpc = st.mpc := rfl
@[simp] theorem tellAll_slu (n : RunNotice) : (st.tellAll n).slu = st.slu := rfl
@[simp] theorem tellAll_rpu (n : RunNotice) : (st.tellAll n).rpu = st.rpu := rfl
@[simp] theorem tellAll_notices (n : RunNotice) : (st.tellAll n).notices = .all (some n) := rfl

/-! ### modLkc -/

@[simp] theorem modLkc_cfl (f : Lkc → Lkc) : (st.modLkc f).cfl = st.cfl := rfl
@[simp] theorem modLkc_bmr (f : Lkc → Lkc) : (st.modLkc f).bmr = st.bmr := rfl
@[simp] theorem modLkc_notices (f : Lkc → Lkc) : (st.modLkc f).notices = st.notices := rfl
@[simp] theorem modLkc_stc (f : Lkc → Lkc) : (st.modLkc f).stc = st.stc := rfl
@[simp] theorem modLkc_gcu (f : Lkc → Lkc) : (st.modLkc f).gcu = st.gcu := rfl
@[simp] theorem modLkc_inc (f : Lkc → Lkc) : (st.modLkc f).inc = st.inc := rfl
@[simp] theorem modLkc_cru (f : Lkc → Lkc) : (st.modLkc f).cru = st.cru := rfl
@[simp] theorem modLkc_mpc (f : Lkc → Lkc) : (st.modLkc f).mpc = st.mpc := rfl
@[simp] theorem modLkc_slu (f : Lkc → Lkc) : (st.modLkc f).slu = st.slu := rfl
@[simp] theorem modLkc_rpu (f : Lkc → Lkc) : (st.modLkc f).rpu = st.rpu := rfl
@[simp] theorem modLkc_lkc (f : Lkc → Lkc) : (st.modLkc f).lkc = f st.lkc := rfl
@[simp] theorem ctx_modLkc (j : Socket) (f : Lkc → Lkc) : (st.modLkc f).ctx j = st.ctx j := rfl
@[simp] theorem incSocket_modLkc (j : Socket) (f : Lkc → Lkc) : (st.modLkc f).incSocket j = st.incSocket j := rfl
@[simp] theorem gcuSocket_modLkc (j : Socket) (f : Lkc → Lkc) : (st.modLkc f).gcuSocket j = st.gcuSocket j := rfl
@[simp] theorem cruSocket_modLkc (j : Socket) (f : Lkc → Lkc) : (st.modLkc f).cruSocket j = st.cruSocket j := rfl
@[simp] theorem port_modLkc (j : Socket) (f : Lkc → Lkc) : (st.modLkc f).port j = st.port j := rfl
@[simp] theorem sluSocket_modLkc (j : Socket) (f : Lkc → Lkc) : (st.modLkc f).sluSocket j = st.sluSocket j := rfl

/-! ### keepLateEnd -/

@[simp] theorem keepLateEnd_cfl (s : Socket) : (st.keepLateEnd s).cfl = st.cfl := rfl
@[simp] theorem keepLateEnd_lkc (s : Socket) : (st.keepLateEnd s).lkc = st.lkc := rfl
@[simp] theorem keepLateEnd_bmr (s : Socket) : (st.keepLateEnd s).bmr = st.bmr := rfl
@[simp] theorem keepLateEnd_notices (s : Socket) : (st.keepLateEnd s).notices = st.notices := rfl
@[simp] theorem keepLateEnd_stc (s : Socket) : (st.keepLateEnd s).stc = st.stc := rfl
@[simp] theorem keepLateEnd_gcu (s : Socket) : (st.keepLateEnd s).gcu = st.gcu := rfl
@[simp] theorem keepLateEnd_cru (s : Socket) : (st.keepLateEnd s).cru = st.cru := rfl
@[simp] theorem keepLateEnd_mpc (s : Socket) : (st.keepLateEnd s).mpc = st.mpc := rfl
@[simp] theorem keepLateEnd_slu (s : Socket) : (st.keepLateEnd s).slu = st.slu := rfl
@[simp] theorem keepLateEnd_rpu (s : Socket) : (st.keepLateEnd s).rpu = st.rpu := rfl
@[simp] theorem keepLateEnd_inc_sockets (s : Socket) : (st.keepLateEnd s).inc.sockets = st.inc.sockets := rfl
@[simp] theorem keepLateEnd_inc_idle (s : Socket) : (st.keepLateEnd s).inc.idle = st.inc.idle := rfl
@[simp] theorem keepLateEnd_inc_nextPreset (s : Socket) : (st.keepLateEnd s).inc.nextPreset = st.inc.nextPreset := rfl
@[simp] theorem keepLateEnd_inc_inbox (s : Socket) :
    (st.keepLateEnd s).inc.inbox = keepLate s st.stcToOpen st.inc.inbox := rfl
@[simp] theorem ctx_keepLateEnd (j s : Socket) : (st.keepLateEnd s).ctx j = st.ctx j := rfl
@[simp] theorem incSocket_keepLateEnd (j s : Socket) : (st.keepLateEnd s).incSocket j = st.incSocket j := rfl
@[simp] theorem gcuSocket_keepLateEnd (j s : Socket) : (st.keepLateEnd s).gcuSocket j = st.gcuSocket j := rfl
@[simp] theorem cruSocket_keepLateEnd (j s : Socket) : (st.keepLateEnd s).cruSocket j = st.cruSocket j := rfl
@[simp] theorem port_keepLateEnd (j s : Socket) : (st.keepLateEnd s).port j = st.port j := rfl
@[simp] theorem sluSocket_keepLateEnd (j s : Socket) : (st.keepLateEnd s).sluSocket j = st.sluSocket j := rfl

/-! ### placeFrame -/

@[simp] theorem placeFrame_cfl (r : Byte) (b : Body) : (st.placeFrame r b).cfl = st.cfl := rfl
@[simp] theorem placeFrame_bmr (r : Byte) (b : Body) : (st.placeFrame r b).bmr = st.bmr := rfl
@[simp] theorem placeFrame_notices (r : Byte) (b : Body) : (st.placeFrame r b).notices = st.notices := rfl
@[simp] theorem placeFrame_stc (r : Byte) (b : Body) : (st.placeFrame r b).stc = st.stc := rfl
@[simp] theorem placeFrame_gcu (r : Byte) (b : Body) : (st.placeFrame r b).gcu = st.gcu := rfl
@[simp] theorem placeFrame_inc (r : Byte) (b : Body) : (st.placeFrame r b).inc = st.inc := rfl
@[simp] theorem placeFrame_cru (r : Byte) (b : Body) : (st.placeFrame r b).cru = st.cru := rfl
@[simp] theorem placeFrame_mpc (r : Byte) (b : Body) : (st.placeFrame r b).mpc = st.mpc := rfl
@[simp] theorem placeFrame_slu (r : Byte) (b : Body) : (st.placeFrame r b).slu = st.slu := rfl
@[simp] theorem placeFrame_rpu (r : Byte) (b : Body) : (st.placeFrame r b).rpu = st.rpu := rfl
@[simp] theorem placeFrame_lkc_link (r : Byte) (b : Body) : (st.placeFrame r b).lkc.link = st.lkc.link := rfl
@[simp] theorem placeFrame_lkc_medium (r : Byte) (b : Body) : (st.placeFrame r b).lkc.medium = st.lkc.medium := rfl
@[simp] theorem placeFrame_lkc_ordinary (r : Byte) (b : Body) : (st.placeFrame r b).lkc.ordinary = st.lkc.ordinary := rfl
@[simp] theorem placeFrame_lkc_rotating (r : Byte) (b : Body) : (st.placeFrame r b).lkc.rotating = st.lkc.rotating := rfl
@[simp] theorem placeFrame_lkc_inbound (r : Byte) (b : Body) : (st.placeFrame r b).lkc.inbound = st.lkc.inbound := rfl
@[simp] theorem placeFrame_lkc_deferredJoin (r : Byte) (b : Body) : (st.placeFrame r b).lkc.deferredJoin = st.lkc.deferredJoin := rfl
@[simp] theorem placeFrame_lkc_objections (r : Byte) (b : Body) : (st.placeFrame r b).lkc.objections = st.lkc.objections := rfl
@[simp] theorem placeFrame_lkc_followed (r : Byte) (b : Body) : (st.placeFrame r b).lkc.followed = st.lkc.followed := rfl
@[simp] theorem placeFrame_lkc_mark (r : Byte) (b : Body) : (st.placeFrame r b).lkc.mark = st.lkc.mark := rfl
@[simp] theorem placeFrame_lkc_stopped (r : Byte) (b : Body) : (st.placeFrame r b).lkc.stopped = st.lkc.stopped := rfl
@[simp] theorem placeFrame_lkc_lrst (r : Byte) (b : Body) : (st.placeFrame r b).lkc.lrst = st.lkc.lrst := rfl
@[simp] theorem placeFrame_lkc_flt (r : Byte) (b : Body) : (st.placeFrame r b).lkc.flt = st.lkc.flt := rfl
@[simp] theorem placeFrame_lkc_ownLrst (r : Byte) (b : Body) : (st.placeFrame r b).lkc.ownLrst = st.lkc.ownLrst := rfl
@[simp] theorem placeFrame_lkc_ownFlt (r : Byte) (b : Body) : (st.placeFrame r b).lkc.ownFlt = st.lkc.ownFlt := rfl
@[simp] theorem placeFrame_lkc_holdWait (r : Byte) (b : Body) : (st.placeFrame r b).lkc.holdWait = st.lkc.holdWait := rfl
@[simp] theorem placeFrame_lkc_mirrorChecks (r : Byte) (b : Body) : (st.placeFrame r b).lkc.mirrorChecks = st.lkc.mirrorChecks := rfl
@[simp] theorem placeFrame_lkc_outbound (r : Byte) (b : Body) :
    (st.placeFrame r b).lkc.outbound = insertEntry st.lkc.outbound (newEntry r b) := rfl
@[simp] theorem ctx_placeFrame (j : Socket) (r : Byte) (b : Body) : (st.placeFrame r b).ctx j = st.ctx j := rfl
@[simp] theorem incSocket_placeFrame (j : Socket) (r : Byte) (b : Body) : (st.placeFrame r b).incSocket j = st.incSocket j := rfl
@[simp] theorem gcuSocket_placeFrame (j : Socket) (r : Byte) (b : Body) : (st.placeFrame r b).gcuSocket j = st.gcuSocket j := rfl
@[simp] theorem cruSocket_placeFrame (j : Socket) (r : Byte) (b : Body) : (st.placeFrame r b).cruSocket j = st.cruSocket j := rfl
@[simp] theorem port_placeFrame (j : Socket) (r : Byte) (b : Body) : (st.placeFrame r b).port j = st.port j := rfl
@[simp] theorem sluSocket_placeFrame (j : Socket) (r : Byte) (b : Body) : (st.placeFrame r b).sluSocket j = st.sluSocket j := rfl

end Machine.Station

end Sys2Proof
end

