-- ==== Sys2Proof/Laws/Mirror.lean ====
section
/-! SUPPORT. Taking an entry of the inbound queue: the head that fits, the run-number check, the end test, the notices. -/

namespace Sys2Proof.Machine

namespace Mirror

theorem endTest_due {m : Mirror} (h : m.EndDue) : m.endTest = (m.endRun .complete, [.ended .complete]) := by
  obtain ⟨h1, h2⟩ := h
  simp [settled] at h2
  simp [endTest, h1, h2]

theorem endTest_notDue {m : Mirror} (h : ¬ m.EndDue) : m.endTest = (m, []) := by
  unfold endTest
  rw [if_neg]
  intro hc
  exact h ⟨hc.1, by simp [settled, hc.2.1, hc.2.2.1, hc.2.2.2]⟩

theorem notDue_of_phase {m : Mirror} (h : m.phase ≠ .sealing) : ¬ m.EndDue := fun hc => h hc.1

theorem has_true {m : Mirror} {x : EntryState} : m.has x = true ↔ ∃ e ∈ m.roster, e.state = x := by
  simp [has]

theorem has_false {m : Mirror} {x : EntryState} : m.has x = false ↔ ∀ e ∈ m.roster, e.state ≠ x := by
  simp [has]

/-- The entry at an index is in the roster, unless it is the entry of an index beyond it. -/
theorem entry_mem {m : Mirror} {i : Nat} (h : m.entry i ≠ .absent) : i < m.roster.length ∧ m.entry i ∈ m.roster := by
  unfold entry at h ⊢
  by_cases hi : i < m.roster.length
  · refine ⟨hi, ?_⟩
    rw [List.getD_eq_getElem?_getD, List.getElem?_eq_getElem hi]
    exact List.getElem_mem hi
  · rw [List.getD_eq_getElem?_getD, List.getElem?_eq_none (by omega)] at h
    exact absurd rfl h

theorem entry_mem_of_state {m : Mirror} {i : Nat} {x : EntryState} (h : (m.entry i).state = x) (hx : x ≠ .absent) :
    i < m.roster.length ∧ m.entry i ∈ m.roster :=
  entry_mem fun hc => hx (by rw [← h, hc]; rfl)

@[simp] theorem entry_setEntry_same {m : Mirror} {i : Nat} {e : RosterEntry} (h : i < m.roster.length) :
    (m.setEntry i e).entry i = e := by
  simp [entry, setEntry, h]

theorem entry_setEntry_other {m : Mirror} {i j : Nat} {e : RosterEntry} (h : j ≠ i) :
    (m.setEntry i e).entry j = m.entry j := by
  simp [entry, setEntry, Ne.symm h]

/-- Every entry of the roster is the entry of some index. -/
theorem mem_roster {m : Mirror} {e : RosterEntry} (h : e ∈ m.roster) : ∃ i, i < m.roster.length ∧ m.entry i = e := by
  obtain ⟨i, hi, rfl⟩ := List.getElem_of_mem h
  exact ⟨i, hi, by simp [entry, hi]⟩

end Mirror

namespace Station

variable {st : Station}

theorem finishTake_notDue {m : Mirror} (h : ¬ m.EndDue) (rest : List Entry) (before after : List Notice) :
    st.finishTake rest m before after =
      ({ st with lkc := { st.lkc with inbound := rest }, bmr := m } : Station).giveAll (before ++ after) := by
  simp [finishTake, Mirror.endTest_notDue h]

theorem finishTake_due {m : Mirror} (h : m.EndDue) (rest : List Entry) (before after : List Notice) :
    st.finishTake rest m before after =
      ({ st with lkc := { st.lkc with inbound := rest }, bmr := m.endRun .complete } : Station).giveAll
        (before ++ .ended .complete :: after) := by
  simp [finishTake, Mirror.endTest_due h]

theorem takeHead_frame {β : Type} {pick : Body → Option β} {f : Frame → Bool → β → List Entry → Station} {fr : Frame}
    {own : Bool} {rest : List Entry} {b : β} (h : st.lkc.inbound = .frame fr own :: rest) (hb : pick fr.body = some b) :
    st.takeHead pick f = f fr own b rest := by
  simp [takeHead, h, hb]

theorem takeHead_other {β : Type} {pick : Body → Option β} {f : Frame → Bool → β → List Entry → Station} {fr : Frame}
    {own : Bool} {rest : List Entry} (h : st.lkc.inbound = .frame fr own :: rest) (hb : pick fr.body = none) :
    st.takeHead pick f = st := by
  simp [takeHead, h, hb]

theorem currentRun_true {run : Byte} (h : run ≠ 0 ∧ run = st.bmr.runNo) : st.currentRun run = true := by
  simp only [currentRun, Bool.and_eq_true, bne_iff_ne, ne_eq, beq_iff_eq]
  exact h

theorem currentRun_false {run : Byte} (h : run = 0 ∨ run ≠ st.bmr.runNo) : st.currentRun run = false := by
  unfold currentRun
  rcases h with h | h
  · simp [h]
  · simp [h]

theorem takeRunFrame_current {run : Byte} (h : run ≠ 0 ∧ run = st.bmr.runNo) (rest : List Entry)
    {fx : Mirror → Option (Mirror × List Notice)} {m : Mirror} {ns : List Notice} (hf : fx st.bmr = some (m, ns)) :
    st.takeRunFrame rest run fx = st.finishTake rest m ns [] := by
  simp [takeRunFrame, currentRun_true h, hf]

theorem takeRunFrame_ignored {run : Byte} (h : run ≠ 0 ∧ run = st.bmr.runNo) (rest : List Entry)
    {fx : Mirror → Option (Mirror × List Notice)} (hf : fx st.bmr = none) :
    st.takeRunFrame rest run fx = st.finishTake rest st.bmr [] [] := by
  simp [takeRunFrame, currentRun_true h, hf]

/-- A run frame that its own checks ignore leaves everything but the queue. -/
theorem takeRunFrame_leaves {run : Byte} (h : run ≠ 0 ∧ run = st.bmr.runNo) (hd : ¬ st.bmr.EndDue) (rest : List Entry)
    {fx : Mirror → Option (Mirror × List Notice)} (hf : fx st.bmr = none) :
    st.takeRunFrame rest run fx = { st with lkc := { st.lkc with inbound := rest } } := by
  rw [takeRunFrame_ignored h rest hf, finishTake_notDue hd]
  rfl

theorem takeRunFrame_strange {run : Byte} (h : run = 0 ∨ run ≠ st.bmr.runNo) (rest : List Entry)
    (fx : Mirror → Option (Mirror × List Notice)) :
    st.takeRunFrame rest run fx = st.finishTake rest st.bmr [] [.ignoredRunFrame] := by
  simp [takeRunFrame, currentRun_false h]

@[simp] theorem giveAll_nil : st.giveAll [] = st := rfl

@[simp] theorem giveAll_cons (n : Notice) (ns : List Notice) : st.giveAll (n :: ns) = (st.give n).giveAll ns := rfl

end Station

/-! ### Numbers carried in bytes -/

theorem socketOf_ofNat (x : Socket) : socketOf (BitVec.ofNat 8 x.val) = some x := by
  revert x; decide

theorem socketOf_eq {b : Byte} {x : Socket} (h : socketOf b = some x) : b = BitVec.ofNat 8 x.val := by
  revert b x; decide

theorem slotOf_ofNat (x : Fin 2) : Station.slotOf (BitVec.ofNat 8 x.val) = some x := by
  revert x; decide

theorem rosterPos_eq (f : Frame) (x : Socket) : rosterPos f.sender x = positionOf f x := rfl

end Sys2Proof.Machine
end

