-- ==== Sys2Proof/Laws/Ops.lean ====
section
/-! SUPPORT. One lemma per shared operation: running a command, taking a message from an inbox, the outbound queue. -/

namespace Sys2Proof.Machine

/-! ### Running a command -/

/-- Once power-on reset has ended, a command answers the state with its effect on the station. -/
theorem State.run_awake {s : State} (h : s.Awake) (f : Station → Station) : s.run f = .next (s.upd f) := by
  unfold State.Awake at h
  simp [State.run, State.upd, h]

theorem State.run_inReset {s : State} (h : s.st.cfl.stage = .inReset) (f : Station → Station) : s.run f = .next s := by
  simp [State.run, h]

theorem State.upd_eq {s : State} {f g : Station → Station} (h : f s.st = g s.st) : s.upd f = s.upd g := by
  simp [State.upd, h]

@[simp] theorem State.upd_st (s : State) (f : Station → Station) : (s.upd f).st = f s.st := rfl

@[simp] theorem State.upd_pending (s : State) (f : Station → Station) : (s.upd f).pending = s.pending := rfl

/-! ### Taking a message -/

theorem takeFirst_append {α β : Type} {pick : α → Option β} {holds : α → Bool} {m : α} {b : β} (post : List α)
    (hm : pick m = some b) :
    ∀ {pre : List α}, (∀ x ∈ pre, pick x = none ∧ holds x = false) →
      takeFirst pick holds (pre ++ m :: post) = some (b, pre ++ post)
  | [], _ => by simp [takeFirst, hm]
  | a :: pre, h => by
    have ha := h a (by simp)
    have ih := takeFirst_append post hm (pre := pre) fun x hx => h x (by simp [hx])
    simp [takeFirst, ha.1, ha.2, ih]

/-- A heard message is taken, when `over` keeps clear of what is picked and of what holds. -/
theorem takeFirst_heard {α β : Type} {pick : α → Option β} {holds : α → Bool} {passes : α → α → Bool} {inbox rest : List α}
    {m : α} {b : β} (h : Heard passes inbox m rest) (hm : pick m = some b)
    (hp : ∀ x, passes m x = true → pick x = none ∧ holds x = false) :
    takeFirst pick holds inbox = some (b, rest) := by
  obtain ⟨pre, post, rfl, rfl, ho⟩ := h
  exact takeFirst_append post hm fun x hx => hp x (ho x hx)

namespace Station

variable {st : Station} {β : Type} {b : β} {f : β → Station → Station}

theorem stcNotice_heard {pick : StcMsg → Option β} {m : StcMsg} {rest : List StcMsg}
    (h : Heard StcMsg.overtakes st.stc.inbox m rest) (hn : m.isNotice = true) (hm : pick m = some b)
    (hp : ∀ x, x.isNotice = false → pick x = none) : st.stcNotice pick f = f b (st.stcLeft rest) := by
  have := takeFirst_heard (holds := StcMsg.isNotice) h hm fun x hx => by
    simp [StcMsg.overtakes, hn] at hx
    exact ⟨hp x hx.2, hx.2⟩
  simp [stcNotice, this, stcLeft]

theorem stcReport_heard {pick : StcMsg → Option β} {m : StcMsg} {l : ReportLine} {rest : List StcMsg}
    (h : Heard StcMsg.overtakes st.stc.inbox m rest) (hn : m.isNotice = false) (hl : m.line = some l)
    (hm : pick m = some b) (hp : ∀ x, x.line ≠ some l → pick x = none) :
    st.stcReport (some l) pick f = f b (st.stcLeft rest) := by
  have := takeFirst_heard (holds := fun x => x.isRunOpened || ((some l).isSome && x.line == some l)) h hm
    fun x hx => by
      simp [StcMsg.overtakes, hn, hl] at hx
      exact ⟨hp x hx.2, by simp [hx]⟩
  simp only [stcReport, this]
  rfl

theorem incNotice_heard {pick : IncMsg → Option β} {m : IncMsg} {rest : List IncMsg}
    (h : Heard IncMsg.overtakes st.inc.inbox m rest) (hn : m.isNotice = true) (hm : pick m = some b)
    (hp : ∀ x, x.isNotice = false → pick x = none) : st.incNotice pick f = f b (st.incLeft rest) := by
  have := takeFirst_heard (holds := IncMsg.isNotice) h hm fun x hx => by
    simp [IncMsg.overtakes, hn] at hx
    exact ⟨hp x hx.2, hx.2⟩
  simp [incNotice, this, incLeft]

theorem incReport_heard {pick : IncMsg → Option β} {m : IncMsg} {rest : List IncMsg}
    (h : Heard IncMsg.overtakes st.inc.inbox m rest) (hm : pick m = some b)
    (hp : ∀ x, IncMsg.overtakes m x = true → pick x = none ∧ x.isRunOpened = false) :
    st.incReport pick f = f b (st.incLeft rest) := by
  have := takeFirst_heard (holds := IncMsg.isRunOpened) h hm hp
  simp [incReport, this, incLeft]

theorem cruReport_heard {pick : CruMsg → Option β} {m : CruMsg} {rest : List CruMsg}
    (h : Heard CruMsg.overtakes st.cru.inbox m rest) (hm : pick m = some b)
    (hp : ∀ x, CruMsg.overtakes m x = true → pick x = none) : st.cruReport pick f = f b (st.cruLeft rest) := by
  have := takeFirst_heard (holds := CruMsg.isRunOpened) h hm fun x hx => by
    refine ⟨hp x hx, ?_⟩
    simp [CruMsg.overtakes] at hx
    simp [hx]
  simp [cruReport, this, cruLeft]

theorem sluNotice_heard {pick : SluMsg → Option β} {m : SluMsg} {rest : List SluMsg}
    (h : Heard SluMsg.overtakes st.slu.inbox m rest) (hn : m.isNotice = true) (hm : pick m = some b)
    (hp : ∀ x, x.isNotice = false → pick x = none) : st.sluNotice pick f = f b (st.sluLeft rest) := by
  have := takeFirst_heard (holds := SluMsg.isNotice) h hm fun x hx => by
    simp [SluMsg.overtakes, hn] at hx
    exact ⟨hp x hx.2, hx.2⟩
  simp [sluNotice, this, sluLeft]

theorem sluReport_heard {pick : SluMsg → Option β} {m : SluMsg} {rest : List SluMsg}
    (h : Heard SluMsg.overtakes st.slu.inbox m rest) (hm : pick m = some b)
    (hp : ∀ x, SluMsg.overtakes m x = true → pick x = none ∧ x.isRunOpened = false) :
    st.sluReport pick f = f b (st.sluLeft rest) := by
  have := takeFirst_heard (holds := SluMsg.isRunOpened) h hm hp
  simp [sluReport, this, sluLeft]

end Station

namespace Timer

theorem ranOut_some (n : Nat) : ranOut (some n) = decide (n ≤ 1) := rfl

theorem ranOut_none : ranOut none = false := rfl

end Timer

namespace Station

/-- A withdrawal that is heard reaches the port (R158). -/
theorem burstWithdrawal_heard {st : Station} {x : Socket} {n : Nat} {rest : List MpcMsg}
    (h : Heard MpcMsg.overtakes st.mpc.inbox (.withdraw x n) rest) :
    st.burstWithdrawal x = (st.mpcLeft rest).modPort x (withdrawn n) := by
  have hm : pickWithdrawal x (.withdraw x n) = some n := by simp [pickWithdrawal]
  have hp : ∀ m, MpcMsg.overtakes (.withdraw x n) m = true →
      pickWithdrawal x m = none ∧ requestsBurst x n m = false := by
    intro m hm
    cases m with
    | request c b => simp [MpcMsg.overtakes] at hm; simp [pickWithdrawal, requestsBurst]; grind
    | withdraw c k => simp [MpcMsg.overtakes] at hm; simp [pickWithdrawal, requestsBurst]; grind
  have hfirst : st.mpc.inbox.findSome? (pickWithdrawal x) = some n := by
    obtain ⟨pre, post, hq, _, ho⟩ := h
    have hnone : pre.findSome? (pickWithdrawal x) = none :=
      List.findSome?_eq_none_iff.mpr fun m hm => (hp m (ho m hm)).1
    simp [hq, hnone, hm]
  simp [burstWithdrawal, hfirst, takeFirst_heard h hm hp, mpcLeft]

end Station

/-! ### A physical position -/

namespace Station

/-- An event on a position's lines reaches the socket the remap ties to it (R111). -/
theorem atPosition_some {st : Station} {p : Position} {x : Socket} (h : st.socketAt p = some x)
    (f : Socket → Station → Station) : st.atPosition p f = f x st := by
  simp [atPosition, h]

theorem atPosition_none {st : Station} {p : Position} (h : st.socketAt p = none) (f : Socket → Station → Station) :
    st.atPosition p f = st := by
  simp [atPosition, h]

end Station

/-! ### Socket by socket -/

namespace Station

/-- What every socket's turn keeps, all four keep. -/
theorem each_keeps {f : Socket → Station → Station} {K : Station → Prop} (hK : ∀ s st, K st → K (f s st)) {st : Station}
    (h : K st) : K (st.each f) :=
  hK _ _ (hK _ _ (hK _ _ (hK _ _ h)))

/-- A part `g` of the station that a socket's own turn maps by `F`, and no other socket's turn touches, is mapped by `F`.
`K` is what the turns keep. -/
theorem each_get {α : Type} {f : Socket → Station → Station} (g : Station → Socket → α) (F : Socket → α → α)
    (K : Station → Prop) (hK : ∀ s st, K st → K (f s st)) (same : ∀ s st, K st → g (f s st) s = F s (g st s))
    (other : ∀ s t st, t ≠ s → g (f s st) t = g st t) {st : Station} (h : K st) (x : Socket) :
    g (st.each f) x = F x (g st x) := by
  unfold each
  match x with
  | 0 => rw [other 3 0 _ (by decide), other 2 0 _ (by decide), other 1 0 _ (by decide), same 0 _ h]
  | 1 => rw [other 3 1 _ (by decide), other 2 1 _ (by decide), same 1 _ (hK _ _ h), other 0 1 _ (by decide)]
  | 2 =>
    rw [other 3 2 _ (by decide), same 2 _ (hK _ _ (hK _ _ h)), other 1 2 _ (by decide), other 0 2 _ (by decide)]
  | 3 =>
    rw [same 3 _ (hK _ _ (hK _ _ (hK _ _ h))), other 2 3 _ (by decide), other 1 3 _ (by decide), other 0 3 _ (by decide)]

end Station

/-! ### The kinds of frames the outbound queue tells apart -/

namespace Station

@[simp] theorem urgentBody_announce {x a b m} : urgentBody (.announce x a b m) = false := rfl
@[simp] theorem urgentBody_query {t} : urgentBody (.query t) = false := rfl
@[simp] theorem urgentBody_state {r} : urgentBody (.state r) = false := rfl
@[simp] theorem urgentBody_runOpen {x a b c} : urgentBody (.runOpen x a b c) = false := rfl
@[simp] theorem urgentBody_join {m a j} : urgentBody (.join m a j) = false := rfl
@[simp] theorem urgentBody_loadSet {k l} : urgentBody (.loadSet k l) = false := rfl
@[simp] theorem urgentBody_verdict {s k v c m d a j} : urgentBody (.verdict s k v c m d a j) = false := rfl
@[simp] theorem urgentBody_shed {l} : urgentBody (.shed l) = false := rfl
@[simp] theorem urgentBody_pause : urgentBody (.pause) = false := rfl
@[simp] theorem urgentBody_resume : urgentBody (.resume) = false := rfl
@[simp] theorem urgentBody_runAbort : urgentBody (.runAbort) = false := rfl
@[simp] theorem urgentBody_poolExtend {a c} : urgentBody (.poolExtend a c) = false := rfl
@[simp] theorem urgentBody_sealClaim {s} : urgentBody (.sealClaim s) = false := rfl
@[simp] theorem urgentBody_sealDone {s n d} : urgentBody (.sealDone s n d) = false := rfl
@[simp] theorem urgentBody_sealSpoil {s n c} : urgentBody (.sealSpoil s n c) = false := rfl
@[simp] theorem urgentBody_bypass {s c k} : urgentBody (.bypass s c k) = true := rfl
@[simp] theorem inAnnouncePlace_announce {x a b m} : inAnnouncePlace (.announce x a b m) = true := rfl
@[simp] theorem inAnnouncePlace_query {t} : inAnnouncePlace (.query t) = false := rfl
@[simp] theorem inAnnouncePlace_state {r} : inAnnouncePlace (.state r) = false := rfl
@[simp] theorem inAnnouncePlace_runOpen {x a b c} : inAnnouncePlace (.runOpen x a b c) = false := rfl
@[simp] theorem inAnnouncePlace_join {m a j} : inAnnouncePlace (.join m a j) = true := rfl
@[simp] theorem inAnnouncePlace_loadSet {k l} : inAnnouncePlace (.loadSet k l) = false := rfl
@[simp] theorem inAnnouncePlace_verdict {s k v c m d a j} : inAnnouncePlace (.verdict s k v c m d a j) = false := rfl
@[simp] theorem inAnnouncePlace_shed {l} : inAnnouncePlace (.shed l) = false := rfl
@[simp] theorem inAnnouncePlace_pause : inAnnouncePlace (.pause) = false := rfl
@[simp] theorem inAnnouncePlace_resume : inAnnouncePlace (.resume) = false := rfl
@[simp] theorem inAnnouncePlace_runAbort : inAnnouncePlace (.runAbort) = false := rfl
@[simp] theorem inAnnouncePlace_poolExtend {a c} : inAnnouncePlace (.poolExtend a c) = false := rfl
@[simp] theorem inAnnouncePlace_sealClaim {s} : inAnnouncePlace (.sealClaim s) = false := rfl
@[simp] theorem inAnnouncePlace_sealDone {s n d} : inAnnouncePlace (.sealDone s n d) = false := rfl
@[simp] theorem inAnnouncePlace_sealSpoil {s n c} : inAnnouncePlace (.sealSpoil s n c) = false := rfl
@[simp] theorem inAnnouncePlace_bypass {s c k} : inAnnouncePlace (.bypass s c k) = false := rfl
@[simp] theorem isState_announce {x a b m} : isState (.announce x a b m) = false := rfl
@[simp] theorem isState_query {t} : isState (.query t) = false := rfl
@[simp] theorem isState_state {r} : isState (.state r) = true := rfl
@[simp] theorem isState_runOpen {x a b c} : isState (.runOpen x a b c) = false := rfl
@[simp] theorem isState_join {m a j} : isState (.join m a j) = false := rfl
@[simp] theorem isState_loadSet {k l} : isState (.loadSet k l) = false := rfl
@[simp] theorem isState_verdict {s k v c m d a j} : isState (.verdict s k v c m d a j) = false := rfl
@[simp] theorem isState_shed {l} : isState (.shed l) = false := rfl
@[simp] theorem isState_pause : isState (.pause) = false := rfl
@[simp] theorem isState_resume : isState (.resume) = false := rfl
@[simp] theorem isState_runAbort : isState (.runAbort) = false := rfl
@[simp] theorem isState_poolExtend {a c} : isState (.poolExtend a c) = false := rfl
@[simp] theorem isState_sealClaim {s} : isState (.sealClaim s) = false := rfl
@[simp] theorem isState_sealDone {s n d} : isState (.sealDone s n d) = false := rfl
@[simp] theorem isState_sealSpoil {s n c} : isState (.sealSpoil s n c) = false := rfl
@[simp] theorem isState_bypass {s c k} : isState (.bypass s c k) = false := rfl

end Station

/-! ### The outbound queue -/

namespace Station

/-- Every frame but BYPASS goes to the tail. -/
theorem placeFrame_ordinary (st : Station) (run : Byte) {body : Body} (h : urgentBody body = false) :
    st.placeFrame run body =
      { st with lkc := { st.lkc with outbound := st.lkc.outbound ++ [newEntry run body] } } := by
  simp [placeFrame, insertEntry, newEntry, h]

/-- A BYPASS goes behind the urgent entries and ahead of the ordinary ones. -/
theorem placeBypass_eq (st : Station) (s : Socket) (c : OutCause) :
    st.placeBypass s c = { st with lkc := { st.lkc with outbound := st.bypassPlaced st.lkc.outbound s c } } := rfl

/-- A frame placed is in the queue, and every entry that was there is there. -/
theorem mem_insertEntry {q : List OutEntry} {e x : OutEntry} : x ∈ insertEntry q e ↔ x = e ∨ x ∈ q := by
  unfold insertEntry
  split
  · have h := List.takeWhile_append_dropWhile (p := fun x : OutEntry => urgentBody x.body) (l := q)
    constructor
    · intro hx
      rw [List.mem_append, List.mem_cons] at hx
      rcases hx with hx | hx | hx
      · exact Or.inr (h ▸ List.mem_append_left _ hx)
      · exact Or.inl hx
      · exact Or.inr (h ▸ List.mem_append_right _ hx)
    · intro hx
      rcases hx with hx | hx
      · simp [hx]
      · rw [← h, List.mem_append] at hx
        rcases hx with hx | hx <;> simp [hx]
  · simp [or_comm]

/-- What a withdrawal leaves of the queue. -/
theorem withdrawVerdict_eq (st : Station) (s : Socket) :
    st.withdrawVerdict s = { st with lkc := { st.lkc with outbound := st.verdictWithdrawn s } } := by
  have h : (st.lkc.outbound.filterMap fun e =>
      if isVerdictOf s e.body then (if e.place = .queued then none else some { e with withdrawn := true })
      else some e) = st.verdictWithdrawn s := by
    unfold verdictWithdrawn
    induction st.lkc.outbound with
    | nil => rfl
    | cons e q ih =>
      by_cases hv : isVerdictOf s e.body = true <;> by_cases hq : e.place = .queued <;> simp [hv, hq, ih]
  simp only [withdrawVerdict, h]

end Station

end Sys2Proof.Machine
end

