-- ==== Sys2Proof/Laws/Pool.lean ====
section
/-! SUPPORT. The step-completion test while a verdict is missing, and the service of waiting claims from one block. -/

namespace Sys2Proof.Machine

/-- While an ACTIVE entry lacks its verdict, the step goes on (R7). -/
theorem stepTest_act {m : Mirror} {k : Nat} (hp : m.phase = .stepping) (hs : m.step = some k)
    (h : ∃ e ∈ m.roster, e.state = .active ∧ e.lastVerdict ≠ some k) : m.stepTest = (m, []) := by
  obtain ⟨e, he, h1, h2⟩ := h
  have ha : m.has .active = true := Mirror.has_true.mpr ⟨e, he, h1⟩
  have hb : m.allPassed = false := by
    simp [Mirror.allPassed]
    exact ⟨e, he, h1, by simpa [hs] using h2⟩
  simp [Mirror.stepTest, hp, hs, ha, hb]

theorem set_mem {m : Mirror} {i j : Nat} {x : RosterEntry} (hj : j ≠ i) (ha : (m.entry j).state = .active) :
    m.entry j ∈ m.roster.set i x := by
  have h := Mirror.entry_mem_of_state ha (by simp)
  have : (m.setEntry i x).entry j = m.entry j := Mirror.entry_setEntry_other hj
  have h2 := Mirror.entry_mem_of_state (m := m.setEntry i x) (i := j) (x := .active) (by rw [this]; exact ha) (by simp)
  rw [this] at h2
  exact h2.2

theorem serve_nil_pool (l : List Nat) (m : Mirror) (h : m.pool = []) : Mirror.serve l m = ({ m with waiting := l }, []) := by
  cases l <;> simp [Mirror.serve, h]

theorem serve_one : ∀ (l : List Nat) (m : Mirror) (b : PoolBlock), m.pool = [b] → b.next < b.count → l.Nodup → (∀ i ∈ l, i < m.roster.length) →
    let t := (Mirror.serve l m).1
    let k := b.count - b.next
    t.waiting = l.drop k ∧ t.issued = m.issued + min k l.length ∧ t.highWater = m.highWater ∧ t.phase = m.phase ∧ t.roster.length = m.roster.length ∧
      (∀ n i, n < k → l[n]? = some i → (t.entry i).state = .claimed ∧ (t.entry i).number = some (b.first + b.next + n)) ∧
      ∀ i, i ∉ l.take k → t.entry i = m.entry i := by
  intro l
  induction l with
  | nil => intro m b hp hb hn hi; simp [Mirror.serve, hp, Mirror.entry]
  | cons i is ih =>
    intro m b hp hb hn hi
    have hil : i < m.roster.length := hi i (by simp)
    have hni : i ∉ is := (List.nodup_cons.mp hn).1
    have hnn := (List.nodup_cons.mp hn).2
    have hlen : (m.assign i).1.roster.length = m.roster.length := by simp [Mirror.assign, hp, Mirror.setEntry]
    have hent : (m.assign i).1.entry i = { m.entry i with state := .claimed, number := some (b.first + b.next) } := by
      simp [Mirror.assign, hp, Mirror.setEntry, Mirror.entry, hil]
    have hoth : ∀ j, j ≠ i → (m.assign i).1.entry j = m.entry j := by
      intro j hj; simp [Mirror.assign, hp, Mirror.setEntry, Mirror.entry, Ne.symm hj]
    have hser : Mirror.serve (i :: is) m = ((Mirror.serve is (m.assign i).1).1, (i, (m.assign i).2) :: (Mirror.serve is (m.assign i).1).2) := by
      simp [Mirror.serve, hp]
    by_cases hx : b.next + 1 = b.count
    · have hpl : (m.assign i).1.pool = [] := by simp [Mirror.assign, hp, hx]
      have hk : b.count - b.next = 1 := by omega
      intro t k
      have ht : t = { (m.assign i).1 with waiting := is } := by
        show (Mirror.serve (i :: is) m).1 = _
        rw [hser, serve_nil_pool _ _ hpl]
      have hk2 : k = 1 := hk
      clear_value t k
      subst ht hk2
      refine ⟨rfl, ?_, ?_, ?_, hlen, ?_, ?_⟩
      · simp [Mirror.assign, hp, Mirror.setEntry]
      · simp [Mirror.assign, hp, Mirror.setEntry]
      · simp [Mirror.assign, hp, Mirror.setEntry]
      · intro n j hn1 hj
        have : n = 0 := by omega
        subst this; simp at hj; subst hj
        have := hent
        simp [Mirror.entry] at this ⊢
        rw [this]; simp
      · intro j hj; simp at hj; exact hoth j hj
    · have hpl : (m.assign i).1.pool = [{ b with next := b.next + 1 }] := by simp [Mirror.assign, hp, hx]
      have := ih (m.assign i).1 { b with next := b.next + 1 } hpl (by simp; omega) hnn (by intro j hj; rw [hlen]; exact hi j (by simp [hj]))
      intro t k
      have ht : t = (Mirror.serve is (m.assign i).1).1 := by
        show (Mirror.serve (i :: is) m).1 = _
        rw [hser]
      have hk : k = (b.count - (b.next + 1)) + 1 := by show b.count - b.next = _; omega
      clear_value t k
      subst ht hk
      obtain ⟨h1, h2, h3, h4, h5, h6, h7⟩ := this
      refine ⟨?_, ?_, ?_, ?_, ?_, ?_, ?_⟩
      · rw [h1]; simp
      · rw [h2]; simp [Mirror.assign, hp, Mirror.setEntry]; omega
      · rw [h3]; simp [Mirror.assign, hp, Mirror.setEntry]
      · rw [h4]; simp [Mirror.assign, hp, Mirror.setEntry]
      · rw [h5, hlen]
      · intro n j hn1 hj
        cases n with
        | zero =>
          simp at hj; subst hj
          rw [h7 i (fun hc => hni (List.mem_of_mem_take hc)), hent]; simp
        | succ n =>
          simp at hj
          have := h6 n j (by simp; omega) hj
          simp at this
          rw [this.2]; exact ⟨this.1, by congr 1; omega⟩
      · intro j hj
        simp at hj
        rw [h7 j hj.2, hoth j hj.1]

end Sys2Proof.Machine
end

