-- ==== Sys2Proof/Laws/Queue.lean ====
section
/-! SUPPORT. The outbound queue's entries between their places, a JOIN offered to it, start-up's end, and the end of a probe
cycle. -/

namespace Sys2Proof.Machine

theorem find_place {q : List OutEntry} {p : Place} {e : OutEntry} (h : (q.find? fun e => e.place == p) = some e) :
    e ∈ q ∧ e.place = p := by
  have := List.find?_some h
  exact ⟨List.mem_of_find?_eq_some h, by simpa using this⟩

theorem rotatingOf_node (n : Node) : rotatingOf (BitVec.ofNat 8 n.val) = n := by
  unfold rotatingOf
  have : (BitVec.ofNat 8 n.val).toNat = n.val := by simp; omega
  rw [dif_pos (by rw [this]; exact n.isLt)]
  ext; exact this

/-- After an objected slot no entry is on the wire (R48). -/
theorem mem_keepObjected_place {q : List OutEntry} {x : OutEntry} (h : x ∈ q.filterMap Station.keepObjected) : x.place ≠ .onWire := by
  rw [List.mem_filterMap] at h
  obtain ⟨y, hy, h⟩ := h
  unfold Station.keepObjected at h
  split at h
  · split at h <;> simp at h
    subst h; simp
  · simp at h; subst h; assumption

/-- The objected entry is in the queue again, counted (R48). -/
theorem keepObjected_mem {q : List OutEntry} {e : OutEntry} (h : e ∈ q) (hp : e.place = .onWire) (hw : e.withdrawn = false) :
    { e with place := .queued, counted := true } ∈ q.filterMap Station.keepObjected := by
  rw [List.mem_filterMap]
  exact ⟨e, h, by simp [Station.keepObjected, hp, hw]⟩

/-- Entries that come back from a place: the withdrawn ones are gone (R56). -/
theorem mem_returnEntries {p : Place} {q : List OutEntry} {x : OutEntry} : x ∈ Station.returnEntries p q ↔
    (x ∈ q ∧ x.place ≠ p) ∨ ∃ y ∈ q, y.place = p ∧ y.withdrawn = false ∧ x = { y with place := .queued } := by
  unfold Station.returnEntries
  rw [List.mem_filterMap]
  constructor
  · rintro ⟨y, hy, h⟩
    by_cases hp : y.place = p
    · rw [if_pos hp] at h
      by_cases hw : y.withdrawn = true
      · simp [hw] at h
      · simp [hw] at h
        exact Or.inr ⟨y, hy, hp, by simpa using hw, by rw [← h]; cases y; simp_all⟩
    · rw [if_neg hp] at h
      simp at h; subst h; exact Or.inl ⟨hy, hp⟩
  · rintro (⟨h1, h2⟩ | ⟨y, h1, h2, h3, rfl⟩)
    · exact ⟨x, h1, by simp [h2]⟩
    · exact ⟨y, h1, by simp [h2, h3]⟩

/-- After a link reset every entry is in the queue (R58). -/
theorem returned_all {q : List OutEntry} : (∀ x ∈ Station.returnEntries .candidate (Station.returnEntries .onWire q), x.place = .queued) ∧
    ∀ x ∈ q, x.withdrawn = false → { x with place := .queued } ∈ Station.returnEntries .candidate (Station.returnEntries .onWire q) := by
  refine ⟨?_, ?_⟩
  · intro x hx
    rw [mem_returnEntries] at hx
    rcases hx with ⟨h1, h2⟩ | ⟨y, h1, h2, h3, rfl⟩
    · rw [mem_returnEntries] at h1
      rcases h1 with ⟨h3, h4⟩ | ⟨y, h3, h4, h5, rfl⟩
      · cases hp : x.place <;> simp_all
      · rfl
    · rfl
  · intro x hx hw
    by_cases h1 : x.place = .onWire
    · refine mem_returnEntries.mpr (.inl ⟨mem_returnEntries.mpr (.inr ⟨x, hx, h1, hw, rfl⟩), ?_⟩)
      simp
    · by_cases h2 : x.place = .candidate
      · exact mem_returnEntries.mpr (.inr ⟨x, mem_returnEntries.mpr (.inl ⟨hx, h1⟩), h2, hw, rfl⟩)
      · have h3 : x.place = .queued := by cases h : x.place <;> simp_all
        have : ({ x with place := .queued } : OutEntry) = x := by cases x; simp_all
        rw [this]
        exact mem_returnEntries.mpr (.inl ⟨mem_returnEntries.mpr (.inl ⟨hx, h1⟩), h2⟩)

/-- R181: what the end of start-up leaves. -/
theorem enterRunning_eq (st : Station) (l : Loaded) : st.enterRunning l = { st with
    cfl := { st.cfl with
      stage := .running, retry := none, status := some l.status, station := some l.station, profiles := l.profiles,
      slotA := l.slotA, slotB := l.slotB }
    cru := { st.cru with
      sockets := .tabulate fun s => { table := freshTable (l.profiles.get s), request := .none } }
    lkc := { st.lkc with outbound := st.lkc.outbound ++ [newEntry0 (announceBody l)] }
    inc := { st.inc with inbox := st.inc.inbox ++ [.startUpEnd] } } := by
  unfold Station.enterRunning
  dsimp only
  rw [Station.placeFrame_ordinary _ _ (by rfl)]
  rfl

/-- R116: the detect-change count after a probe. -/
theorem changesAfter_some (o : ProbeResult) (d : DetectClass) (n : Nat) :
    changesAfter (some o) d n = if o.detect = d ∨ 255 ≤ n then n else n + 1 := by
  unfold changesAfter satSucc Config.smallCountMax
  by_cases h : o.detect = d
  · simp [h]
  · by_cases h2 : 255 ≤ n
    · have : ¬ n < 255 := by omega
      simp [h, h2]
    · have : n < 255 := by omega
      simp [h, this, h2]

/-- R115, R116: what the end of a probe cycle leaves. -/
theorem probed_eq (i : IncSocket) (r : ProbeResult) :
    ({ i with state := .bypassed, probe := some r, changes := changesAfter i.probe r.detect i.changes, cycle := .none,
              idleWait := some Config.idleProbeMs } : IncSocket) = i.probed r := by
  unfold IncSocket.probed
  cases i.probe with
  | none => rfl
  | some o => rw [changesAfter_some]; rfl

/-- R45, R50: a candidate that wins. -/
theorem putOnWire_wins (l m : Lkc) (h : m.outbound = l.outbound) (ho : m.objections = l.objections) :
    l.Wins (Station.putOnWire m) := by
  refine ⟨by simp [Station.putOnWire, h], ?_, ?_⟩
  · rintro ⟨x, hx, hp, hc⟩
    have : (l.outbound.any fun e => e.place == .candidate && e.counted) = true :=
      List.any_eq_true.mpr ⟨x, hx, by simp [hp, hc]⟩
    simp [Station.putOnWire, h, this, ho]
  · intro hall
    have : (l.outbound.any fun e => e.place == .candidate && e.counted) = false := by
      rw [List.any_eq_false]
      intro x hx
      by_cases hp : x.place = .candidate <;> simp [hp, hall x hx]
    simp [Station.putOnWire, h, this]

namespace Station

/-- R56: withdrawing the VERDICTs of one socket. -/
theorem verdictWithdrawn_eq (st : Station) (x : Socket) :
    st.verdictWithdrawn x = verdictsWithdrawn (· == x) st.lkc.outbound := by
  have hit : ∀ e : OutEntry, (([0, 1, 2, 3] : List Socket).any fun y => y == x && isVerdictOf y e.body) =
      isVerdictOf x e.body := by
    intro e
    fin_cases x <;> simp
  simp only [verdictWithdrawn, verdictsWithdrawn, hit]

/-- R55: a JOIN offered. -/
theorem placeJoin_takes (st : Station) (run : Byte) {body : Body} (h : urgentBody body = false) :
    st.placeJoin run body = { st with lkc := (st.placeJoin run body).lkc } ∧
      st.lkc.TakesJoin (st.placeJoin run body).lkc (newEntry run body) := by
  unfold placeJoin
  cases hf : st.lkc.outbound.find? fun e => inAnnouncePlace e.body with
  | none =>
    rw [placeFrame_ordinary _ _ h]
    refine ⟨rfl, rfl, fun _ => ⟨rfl, rfl⟩, ?_⟩
    intro pre post e hq _ he
    exact absurd he (by simpa using List.find?_eq_none.mp hf e (by simp [hq]))
  | some d =>
    have hd := List.find?_some hf
    have hmem := List.mem_of_find?_eq_some hf
    have hnone : (∀ e ∈ st.lkc.outbound, inAnnouncePlace e.body = false) → False := fun hall => by
      simp [hall d hmem] at hd
    have hone : ∀ pre post e, st.lkc.outbound = pre ++ e :: post →
        (∀ x ∈ pre ++ post, inAnnouncePlace x.body = false) → inAnnouncePlace e.body = true → d = e := by
      intro pre post e hq hall he
      rw [hq] at hmem
      simp only [List.mem_append, List.mem_cons] at hmem hall
      rcases hmem with hm | hm | hm
      · simp [hall d (.inl hm)] at hd
      · exact hm
      · simp [hall d (.inr hm)] at hd
    dsimp only
    split
    · rename_i hc
      refine ⟨rfl, rfl, fun hall => (hnone hall).elim, ?_⟩
      intro pre post e hq hall he
      obtain rfl := hone pre post e hq hall he
      refine ⟨fun _ _ => ⟨?_, rfl⟩, fun ho => ?_⟩
      · have hpre : ∀ x ∈ pre, inAnnouncePlace x.body = false := fun x hx => hall x (by simp [hx])
        have hpost : ∀ x ∈ post, inAnnouncePlace x.body = false := fun x hx => hall x (by simp [hx])
        have keep : ∀ q : List OutEntry, (∀ x ∈ q, inAnnouncePlace x.body = false) →
            (q.map fun x => if inAnnouncePlace x.body then { newEntry run body with place := x.place } else x) = q := by
          intro q hx
          induction q with
          | nil => rfl
          | cons a q ih => simp [hx a (by simp), ih fun x h => hx x (by simp [h])]
        simp [hq, keep pre hpre, keep post hpost, he]
      · rcases ho with ho | ho
        · simp [ho] at hc
        · exact absurd ho hc.2
    · rename_i hc
      refine ⟨rfl, rfl, fun hall => (hnone hall).elim, ?_⟩
      intro pre post e hq hall he
      obtain rfl := hone pre post e hq hall he
      exact ⟨fun hj hp => absurd ⟨hj, hp⟩ hc, fun _ => ⟨rfl, rfl⟩⟩

end Station
end Sys2Proof.Machine
end

