-- ==== Sys2Proof/Laws/Rounds.lean ====
section
/-! SUPPORT. The marks of a round: which nodes they name, and which of them wins (R43). -/

namespace Sys2Proof.Machine

/-- The first index that passes is the one found. -/
theorem find_finRange : ∀ (n : Nat) (p : Fin n → Bool) (w : Fin n), p w = true → (∀ v < w, p v = false) →
    (List.finRange n).find? p = some w := by
  intro n
  induction n with
  | zero => intro p w; exact w.elim0
  | succ n ih =>
    intro p w hw hl
    rw [List.finRange_succ]
    by_cases h0 : p 0 = true
    · rcases Fin.eq_zero_or_eq_succ w with h | ⟨j, h⟩
      · subst h; simp [List.find?, h0]
      · subst h
        have := hl 0 (Fin.succ_pos j)
        simp [h0] at this
    · rcases Fin.eq_zero_or_eq_succ w with h | ⟨j, h⟩
      · subst h; exact absurd hw h0
      · subst h
        simp [List.find?, h0]
        exact ih (fun i => p i.succ) j hw (fun v hv => hl v.succ (Fin.succ_lt_succ_iff.mpr hv))

/-- The lowest marked slot is the head of the marked nodes (R43, check 1). -/
theorem head_marked {u : W32} {w : Node} (h : slotMarked u w = true) (hl : ∀ v : Node, v < w → slotMarked u v = false) :
    (markedNodes u).head? = some w := by
  unfold markedNodes
  rw [List.head?_filter]
  exact find_finRange _ _ w h hl

theorem head_none {u : W32} (h : ∀ v : Node, slotMarked u v = false) : (markedNodes u).head? = none := by
  unfold markedNodes
  rw [List.head?_filter]
  simp [h]

/-- The marked node nearest behind the rotating ID is the first one after it (R43, check 3). -/
theorem first_after {rot : Node} {o : W32} {w : Node} (h : slotMarked o w = true)
    (hl : ∀ v : Node, slotMarked o v = true → roundRank rot w ≤ roundRank rot v) : firstAfter rot o = some w := by
  unfold firstAfter markedNodes
  by_cases hw : rot < w
  · have : (((List.finRange 32).filter (slotMarked o)).find? fun n => decide (rot < n)) = some w := by
      rw [List.find?_filter]
      apply find_finRange
      · simp [h, hw]
      · intro v hv
        by_contra hc
        simp at hc
        have := hl v hc.1
        have hw' : rot.val < w.val := hw
        have hc' : rot.val < v.val := hc.2
        have hv' : v.val < w.val := hv
        unfold roundRank at this
        omega
    rw [this]
  · have hn : (((List.finRange 32).filter (slotMarked o)).find? fun n => decide (rot < n)) = none := by
      rw [List.find?_filter]
      simp
      intro v hv
      by_contra hc
      have := hl v hv
      have hw' : ¬ rot.val < w.val := hw
      have hc' : rot.val < v.val := not_le.mp hc
      unfold roundRank at this
      omega
    rw [hn]
    simp only
    rw [List.head?_filter]
    apply find_finRange
    · exact h
    · intro v hv
      by_contra hc
      simp at hc
      have := hl v hc
      have hw' : ¬ rot.val < w.val := hw
      have hv' : v.val < w.val := hv
      unfold roundRank at this
      omega

theorem first_none {rot : Node} {o : W32} (h : ∀ v : Node, slotMarked o v = false) : firstAfter rot o = none := by
  unfold firstAfter markedNodes
  have : (List.finRange 32).filter (slotMarked o) = [] := by simp [h]
  rw [this]; rfl

theorem marked_or {u v : W32} {n : Node} : slotMarked (u ||| v) n = (slotMarked u n || slotMarked v n) := by
  simp [slotMarked]

theorem marked_one {n v : Node} : slotMarked (1#32 <<< n.val) v = decide (v = n) := by
  revert n v; decide +kernel

theorem marked_zero {v : Node} : slotMarked 0 v = false := by simp [slotMarked]

end Sys2Proof.Machine
end

