-- ==== Sys2Proof/Laws/Sockets.lean ====
section
/-! SUPPORT. What the operations on one socket and on its queue entries do, each in the words the statements use; and what
the outputs of a position and of the store's line are. -/

namespace Sys2Proof.Machine

/-! ### Entries that go back to the queue -/

/-- R45, R56, R58, R60. -/
theorem returnEntries_eq (l : Lkc) (p : Place) : Station.returnEntries p l.outbound = l.backFrom p := by
  unfold Station.returnEntries Lkc.backFrom
  induction l.outbound with
  | nil => rfl
  | cons e q ih => by_cases hp : e.place = p <;> by_cases hw : e.withdrawn = true <;> simp [hp, hw, ih]

/-- R48, R49, R56. -/
theorem keepObjected_eq (l : Lkc) : l.outbound.filterMap Station.keepObjected = l.countedBack := by
  unfold Lkc.countedBack
  induction l.outbound with
  | nil => rfl
  | cons e q ih =>
    by_cases hp : e.place = .onWire <;> by_cases hw : e.withdrawn = true <;> simp [Station.keepObjected, hp, hw, ih]

/-! ### Windows and shunts -/

namespace Station

/-- R105. -/
theorem voidWindow_eq (st : Station) (x : Socket) : st.voidWindow x = st.modGcu x GcuSocket.voided := rfl

/-- R110. -/
theorem closeShunt_eq (st : Station) (x : Socket) : st.closeShunt x = st.modInc x IncSocket.shut := by
  unfold closeShunt modInc IncSocket.shut
  generalize st.inc.sockets.get x = i
  cases h : i.state <;> simp [shuntOpenIn, h]

theorem lateFault_none {c : JoinFault} {i : IncSocket} (h : i.joinFault = .none) :
    lateFault c i = { i with joinFault := c } := by simp [lateFault, h]

theorem lateFault_set {c : JoinFault} {i : IncSocket} (h : i.joinFault ≠ .none) : lateFault c i = i := by
  simp [lateFault, h]

theorem shut_joinFault (i : IncSocket) : i.shut.joinFault = i.joinFault := by
  unfold IncSocket.shut; split <;> rfl

theorem joinsToBegin_iff {st : Station} : st.joinsToBegin = true ↔
    st.stc.inbox.countP StcMsg.isRunOpened < st.inc.inbox.countP IncMsg.isRunOpened := decide_eq_true_iff

/-- R70, R124, R119. -/
theorem endJoinLate_socket (st : Station) (x : Socket) : (st.endJoinLate x).incSocket x = st.endedLate x := by
  unfold endJoinLate
  rw [closeShunt_eq, incSocket_modInc_same, incSocket_modInc_same, incSocket_keepLateEnd]
  by_cases hb : st.joinsToBegin = true
  · simp [endedLate, joinsToBegin_iff.mp hb, hb, lateFault]
  · have hl := mt joinsToBegin_iff.mpr hb
    by_cases hj : (st.incSocket x).joinFault = .none <;>
      simp [endedLate, hl, hb, lateFault, IncSocket.late, shut_joinFault, hj]

/-- A late end leaves every block but the INC alone, and of the INC the other sockets and the flag of idle probing. -/
theorem endJoinLate_eq (st : Station) (x : Socket) : st.endJoinLate x = { st with inc := { st.inc with
    sockets := st.inc.sockets.set x (st.endedLate x), inbox := keepLate x st.stcToOpen st.inc.inbox } } := by
  have h := endJoinLate_socket st x
  unfold endJoinLate at h ⊢
  rw [closeShunt_eq] at h ⊢
  rw [incSocket_modInc_same] at h
  simp only [modInc, Quad.get_set_same, Quad.set_set_same, keepLateEnd, incSocket] at h ⊢
  rw [h]

/-! ### The late ends that wait with a run-opened notice (R70; log 48) -/

/-- No notice comes or goes. -/
@[simp] theorem countP_keepLate (x : Socket) (n : Nat) (q : List IncMsg) :
    (keepLate x n q).countP IncMsg.isRunOpened = q.countP IncMsg.isRunOpened := by
  induction q with
  | nil => rfl
  | cons m q ih =>
    cases m <;> simp only [keepLate] <;> (try split) <;> simp [List.countP_cons, IncMsg.isRunOpened, ih]

/-- With no more notices than `n` in the inbox there is none to keep a late end with. -/
theorem keepLate_none {x : Socket} {n : Nat} {q : List IncMsg} (h : q.countP IncMsg.isRunOpened ≤ n) : keepLate x n q = q := by
  induction q with
  | nil => rfl
  | cons m q ih =>
    simp only [List.countP_cons] at h
    cases m with
    | runOpened r late =>
      simp only [IncMsg.isRunOpened, if_true] at h
      simp [keepLate, show q.countP IncMsg.isRunOpened ≠ n by omega, ih (by omega)]
    | _ => simp [keepLate, ih (by omega)]

/-- The notice with `n` behind it keeps the late end. -/
theorem keepLate_at (x : Socket) {n : Nat} (pre post : List IncMsg) (h : RunHeader) (late : Quad Bool)
    (hn : post.countP IncMsg.isRunOpened = n) :
    keepLate x n (pre ++ .runOpened h late :: post) = pre ++ .runOpened h (late.set x true) :: post := by
  induction pre with
  | nil => simp [keepLate, hn]
  | cons m pre ih =>
    cases m with
    | runOpened r l =>
      have : (pre ++ .runOpened h late :: post).countP IncMsg.isRunOpened ≠ n := by
        simp [List.countP_append, List.countP_cons, IncMsg.isRunOpened, hn]; omega
      rw [List.cons_append, List.cons_append, keepLate, if_neg this, ih]
    | _ => simp [keepLate, ih]

/-- Late ends of several sockets, one after the other. -/
theorem lateEndsKept_fold (st : Station) (ended : Socket → Bool) : st.LateEndsKept ended
    (([0, 1, 2, 3] : List Socket).foldl (fun q x => if ended x then keepLate x st.stcToOpen q else q) st.inc.inbox) := by
  constructor
  · intro pre h late post hq hn
    have turn : ∀ (l : Quad Bool) (x : Socket),
        (if ended x then keepLate x st.stcToOpen (pre ++ .runOpened h l :: post) else pre ++ .runOpened h l :: post) =
          pre ++ .runOpened h (if ended x then l.set x true else l) :: post := fun l x => by
      split
      · exact keepLate_at x pre post h l hn
      · rfl
    simp only [hq, List.foldl_cons, List.foldl_nil, turn]
    congr 3
    cases h0 : ended 0 <;> cases h1 : ended 1 <;> cases h2 : ended 2 <;> cases h3 : ended 3 <;>
      simp [Quad.tabulate, Quad.set, Quad.get, h0, h1, h2, h3]
  · intro hn
    have turn : ∀ x, (if ended x then keepLate x st.stcToOpen st.inc.inbox else st.inc.inbox) = st.inc.inbox := fun x => by
      split
      · exact keepLate_none hn
      · rfl
    simp only [List.foldl_cons, List.foldl_nil, turn]

@[simp] theorem stcToOpen_endJoinLate (st : Station) (x : Socket) : (st.endJoinLate x).stcToOpen = st.stcToOpen := by
  simp [endJoinLate_eq, stcToOpen]

@[simp] theorem joinsToBegin_endJoinLate (st : Station) (x : Socket) : (st.endJoinLate x).joinsToBegin = st.joinsToBegin := by
  rw [Bool.eq_iff_iff, joinsToBegin_iff, joinsToBegin_iff, endJoinLate_eq, countP_keepLate]

/-- R70, R119: a socket whose late end waits with the notice is left at LATE, its join not begun and its shunt as it was. -/
theorem openJoin_late {st : Station} {x : Socket} (h : st.enabled x = true) :
    st.openJoin true x = st.modInc x fun i => { i with joinFault := .late, deferred := none, join := .none } := by
  simp [openJoin, h, lateFault, modInc, Quad.get_set_same, Quad.set_set_same]

/-! ### The comparison with the roster (R85) -/

/-- The join's preset request after a change `f` of the socket, as one write (R123; log 20). -/
theorem askPreset_modInc (st : Station) (x : Socket) (f : IncSocket → IncSocket) : (st.modInc x f).askPreset x = { st with
    inc := { st.inc with
      nextPreset := st.inc.nextPreset + 1
      sockets := st.inc.sockets.set x { f (st.incSocket x) with join := .preset st.inc.nextPreset } }
    cru := { st.cru with inbox := st.cru.inbox ++ [.presetRequest x st.inc.nextPreset] } } := by
  simp [askPreset, modInc, incSocket, tellCru]

theorem gone_atLoadSet (st : Station) (x : Socket) : st.gone true x = ((st.ownEntry x).state != .active) := by simp [gone]

theorem gone_eq (st : Station) (x : Socket) : st.gone false x = st.left x := by
  unfold gone left passedLast
  cases (st.ctx x).verdicts.getLast? with
  | none => simp
  | some r =>
    cases (st.ctx x).passed <;> simp [Bool.or_comm]

theorem rosterCause_out {st : Station} {x : Socket} {c : OutCause} (h : (st.ownEntry x).out = some c) :
    st.rosterCause x = c := by simp [rosterCause, h]

theorem rosterCause_absent {st : Station} {x : Socket} (h : (st.ownEntry x).out = none)
    (ha : (st.ownEntry x).state = .absent) : st.rosterCause x = .late := by simp [rosterCause, h, ha]

/-! ### Frames followed and outputs -/

theorem ordinaryRound_known {l : Lkc} (h : l.medium ≠ .unknown) (f : Option Frame) : ordinaryRound l f = l.ordinary := by
  simp [ordinaryRound, h]

theorem ordinaryRound_unknown {l : Lkc} (h : l.medium = .unknown) (f : Frame) :
    ordinaryRound l (some f) = !urgentBody f.body := by simp [ordinaryRound, h]

/-- R39, R40, R42. -/
theorem drivesRoundStart_iff {st : Station} :
    st.drivesRoundStart = true ↔ st.lkc.link = .active ∧ st.lkc.medium = .free ∧ st.lkc.outbound ≠ [] := by
  simp [drivesRoundStart, and_assoc]

/-- R41, from ACTIVE. -/
theorem enterMute_active {st : Station} (h : st.lkc.link = .active) (c : OwnFault) : st.enterMute c = { st with
    lkc := { st.lkc with link := .mute, ownFlt := some 10 }
    rpu := { st.rpu with ownFault := c, muted := true }
    stc := { st.stc with inbox := st.stc.inbox ++ [.mute] } } := by
  simp [enterMute, assertFlt, h, tellStc, Config.fltAssertMs]

/-- A station in MUTE drives no round-start mark (R41). -/
theorem drivesRoundStart_enterMute (st : Station) (c : OwnFault) : (st.enterMute c).drivesRoundStart = false := by
  simp [drivesRoundStart, enterMute, tellStc]

theorem storeLines_reading {st : Station} (h : st.cfl.stage = .reading) (answer : List Byte) :
    st.storeLines answer = some (storeTransfer (attemptBytes answer)) := by simp [storeLines, h]

theorem storeLines_released {st : Station} (h : st.cfl.stage ≠ .reading) (answer : List Byte) :
    st.storeLines answer = none := by simp [storeLines, h]

theorem meterTx_socket {st : Station} {p : Position} {x : Socket} (h : st.socketAt p = some x) :
    st.meterTx p = transmitting (st.port x) := by simp [meterTx, h, port]

theorem meterTx_none {st : Station} {p : Position} (h : st.socketAt p = none) : st.meterTx p = none := by
  simp [meterTx, h]

end Station

end Sys2Proof.Machine
end

