-- ==== Sys2Proof/Laws/Windows.lean ====
section
/-! SUPPORT. The ends of windows that wait when their voids are asked for (R105; log 18): each is taken as its own command takes
it, without one nothing happens, and the other blocks stay as they are. The report of a write burst's end that waits (R160). -/

namespace Sys2Proof.Machine

/-- No end of the window is found in an inbox that holds none. -/
theorem takeFirst_windowEnd_none {x : Socket} {l : List StcMsg} (h : ∀ m ∈ l, m.windowEnd x = none) :
    takeFirst (StcMsg.windowEnd x) StcMsg.isRunOpened l = none := by
  induction l with
  | nil => rfl
  | cons m l ih =>
    simp only [takeFirst, h m (by simp), ih fun y hy => h y (by simp [hy])]
    split <;> rfl

/-- What the end of a socket's window overtakes is no end of that window and no run-opened notice. -/
theorem windowEnd_overtaken {x : Socket} {m y : StcMsg} (hm : m.line = some (.gcu x)) (hn : m.isNotice = false)
    (h : StcMsg.overtakes m y = true) : y.windowEnd x = none ∧ y.isRunOpened = false := by
  simp [StcMsg.overtakes, hn, hm] at h
  refine ⟨?_, h.1.1⟩
  have hl := h.2
  cases y <;> simp_all [StcMsg.windowEnd, StcMsg.line]

namespace Station

/-- With no end waiting, nothing happens. -/
theorem takeEnded_none {st : Station} {x : Socket}
    (h : (st.ctx x).run = .measuring → ∀ m ∈ st.stc.inbox, m.windowEnd x = none) : st.takeEnded x = st := by
  unfold takeEnded
  split
  · rename_i hr
    rw [takeFirst_windowEnd_none (h hr)]
  · rfl

/-- The end of a window that waits is taken. -/
theorem takeEnded_heard {st : Station} {x : Socket} {m : StcMsg} {w : WindowEnd} {rest : List StcMsg}
    (h : Heard StcMsg.overtakes st.stc.inbox m rest) (hm : m.windowEnd x = some w) (hl : m.line = some (.gcu x))
    (hn : m.isNotice = false) (hr : (st.ctx x).run = .measuring) (hk : .maskEnd x ∉ rest) :
    st.takeEnded x = (st.stcLeft rest).takeWindowEnd x w := by
  have ht := takeFirst_heard (holds := StcMsg.isRunOpened) h hm fun y hy => windowEnd_overtaken hl hn hy
  have hf : rest.filter (· != StcMsg.maskEnd x) = rest :=
    List.filter_eq_self.mpr fun y hy => by rw [bne_iff_ne]; rintro rfl; exact hk hy
  simp [takeEnded, hr, ht, hf, stcLeft]

/-- One socket's window. -/
theorem beforeVoids_single (st : Station) (x : Socket) : st.beforeVoids (· == x) = st.takeEnded x := by
  unfold beforeVoids each
  match x with
  | 0 | 1 | 2 | 3 => simp

/-- The sockets take their turns in logical order. -/
theorem beforeVoids_fold (st : Station) (p : Socket → Bool) : st.beforeVoids p =
    ([0, 1, 2, 3] : List Socket).foldl (fun u x => if p x then u.beforeVoids (· == x) else u) st := by
  simp only [beforeVoids_single, List.foldl_cons, List.foldl_nil]
  rfl

/-- With no end waiting at a MEASURING socket that is asked about, nothing happens. -/
theorem beforeVoids_none {st : Station} {p : Socket → Bool}
    (h : ∀ x, p x = true → (st.ctx x).run = .measuring → ∀ m ∈ st.stc.inbox, m.windowEnd x = none) :
    st.beforeVoids p = st := by
  have turn : ∀ x, (if p x then st.takeEnded x else st) = st := fun x => by
    split
    · exact takeEnded_none (h x ‹_›)
    · rfl
  simp only [beforeVoids, each, turn]

/-- What the end of a window leaves alone: every block but the STC, the GCU, the queues of the LKC and the CRU. -/
def SameElsewhere (st u : Station) : Prop :=
  u.cfl = st.cfl ∧ u.bmr = st.bmr ∧ u.notices = st.notices ∧ u.inc = st.inc ∧ u.mpc = st.mpc ∧ u.slu = st.slu ∧ u.rpu = st.rpu ∧
    u.stc.step = st.stc.step ∧ u.stc.slot = st.stc.slot

theorem SameElsewhere.refl (st : Station) : SameElsewhere st st := ⟨rfl, rfl, rfl, rfl, rfl, rfl, rfl, rfl, rfl⟩

theorem SameElsewhere.trans {a b c : Station} (h : SameElsewhere a b) (k : SameElsewhere b c) : SameElsewhere a c :=
  ⟨k.1.trans h.1, k.2.1.trans h.2.1, k.2.2.1.trans h.2.2.1, k.2.2.2.1.trans h.2.2.2.1, k.2.2.2.2.1.trans h.2.2.2.2.1,
    k.2.2.2.2.2.1.trans h.2.2.2.2.2.1, k.2.2.2.2.2.2.1.trans h.2.2.2.2.2.2.1, k.2.2.2.2.2.2.2.1.trans h.2.2.2.2.2.2.2.1,
    k.2.2.2.2.2.2.2.2.trans h.2.2.2.2.2.2.2.2⟩

theorem takeWindowEnd_elsewhere (st : Station) (x : Socket) (w : WindowEnd) : SameElsewhere st (st.takeWindowEnd x w) := by
  unfold takeWindowEnd takeAccuracyEnd retry
  cases w with
  | timed v => exact SameElsewhere.refl _
  | accuracy r =>
    simp only
    split
    · split
      · exact SameElsewhere.refl _
      · split <;> exact SameElsewhere.refl _
    all_goals exact SameElsewhere.refl _

theorem takeEnded_elsewhere (st : Station) (x : Socket) : SameElsewhere st (st.takeEnded x) := by
  unfold takeEnded
  split
  · split
    · exact takeWindowEnd_elsewhere _ _ _
    · exact SameElsewhere.refl _
  · exact SameElsewhere.refl _

theorem beforeVoids_elsewhere (st : Station) (p : Socket → Bool) : SameElsewhere st (st.beforeVoids p) :=
  each_keeps (K := SameElsewhere st) (fun s u h => by
    split
    · exact h.trans (takeEnded_elsewhere u s)
    · exact h) (SameElsewhere.refl st)

/-! ### The report of a write burst's end (R93, R160) -/

theorem writeBurstEnd_heard {st : Station} {x : Socket} {left : Nat} {rest : List GcuMsg}
    (h : Heard GcuMsg.overtakes st.gcu.inbox (.writeBurstEnd x left) rest) :
    st.writeBurstEnd x = (st.gcuLeft rest).modGcu x fun g => { g with mask := some left } := by
  have ht := takeFirst_heard (pick := GcuMsg.maskLeft x) (b := left) (holds := fun _ => false) h (by simp [GcuMsg.maskLeft])
    fun y hy => by
      cases y with
      | runOpened _ => simp [GcuMsg.maskLeft]
      | writeBurstEnd b _ => simp [GcuMsg.overtakes] at hy; simp [GcuMsg.maskLeft]; exact fun h => hy h.symm
  simp only [writeBurstEnd, ht]
  rfl

/-- The report of a socket's write burst waits at the GCU. -/
theorem maskLeft_waits {x : Socket} {l : List GcuMsg} :
    (l.any fun m => (m.maskLeft x).isSome) = true ↔ ∃ k, GcuMsg.writeBurstEnd x k ∈ l := by
  rw [List.any_eq_true]
  constructor
  · rintro ⟨m, hm, h⟩
    cases m with
    | runOpened _ => simp [GcuMsg.maskLeft] at h
    | writeBurstEnd y k => simp [GcuMsg.maskLeft] at h; exact ⟨k, h ▸ hm⟩
  · rintro ⟨k, hk⟩
    exact ⟨_, hk, by simp [GcuMsg.maskLeft]⟩

end Station

end Sys2Proof.Machine
end

