-- ==== Sys2Proof/Tests/Slice0.lean ====
section
/-! SUPPORT. Tests: ill-formed commands, worked examples of the manual, and for each statement of the certificates a state
and operands that meet its hypotheses. -/

namespace Sys2Proof.Tests

set_option Elab.async false

open Sys2Proof Sys2Proof.Machine

/-! ### Form checks: each refuses an ill-formed command and passes one at its bound -/

theorem test_wellFormed_frameEnd :
    (Instr.frameEnd (List.replicate 262 0)).wellFormed = false ∧ (Instr.frameEnd (List.replicate 261 0)).wellFormed = true := by
  decide +kernel

theorem test_wellFormed_readAttemptEnd :
    (Instr.readAttemptEnd (some [0xA4, 0xC7, 0, 7, 0, 0])).wellFormed = false ∧
      (Instr.readAttemptEnd (some [0xA4, 0xC7, 0, 6, 0, 0])).wellFormed = true := by
  decide

theorem test_wellFormed_replyReceived :
    (Instr.replyReceived 0 []).wellFormed = false ∧ (Instr.replyReceived 0 (List.replicate 261 none)).wellFormed = false ∧
      (Instr.replyReceived 0 [none]).wellFormed = true := by
  decide +kernel

theorem test_wellFormed_detectEnd :
    (Instr.detectEnd 0 4294967296).wellFormed = false ∧ (Instr.detectEnd 0 4294967295).wellFormed = true := by
  decide

/-! ### The check codes of R196, R198 and R187, on the digits 1 to 9 -/

def digits : List Byte := [0x31, 0x32, 0x33, 0x34, 0x35, 0x36, 0x37, 0x38, 0x39]

theorem test_checkCodes : crc16 digits = 0x29B1 ∧ crc8 digits = 0xF4 ∧ crc32 digits = 0xCBF43926 := by decide +kernel

/-! ### Small states -/

def channelProfile : ChannelProfile := { mode := .auto, preset := 0, min := -100, max := 100, sensitivity := 10 }

def profile : Profile :=
  { cls := 7, km := 1000, rlo := 100, rhi := 1000, confirm := true, channels := .all4 channelProfile }

def accuracyStep : StepRecord :=
  { kind := .accuracy, loadPoint := 0x11, n := 10, s := 2, lower := -500, upper := 500, spread := 100, attempts := 3,
    adjust := 1, settle := 2000, gateTimeout := 5, w := 0 }

def table : RunTable :=
  { kr := 6000000, steps := [accuracyStep, { accuracyStep with kind := .creep, w := 60 }], fingerprint := 0xF00D }

/-- A running station in ACTIVE, node 5, every socket enabled, with one profile and one table. -/
def station : Station :=
  { Station.reset with
    cfl := { Cfl.reset with
      stage := .running, node := 5, station := some { StationSection.unusable with enable := .all4 true, shedRank := ⟨0, 3, 5, 7⟩ }
      profiles := .all4 (some profile), slotA := some table }
    lkc := { Lkc.reset with link := .active, medium := .free } }

def on (f : Station → Station) : State := { pending := [], st := f station }

def link (f : Lkc → Lkc) : State := on fun st => { st with lkc := f st.lkc }

def entry (b : Body) (p : Place) : OutEntry := { run := 7, body := b, place := p, withdrawn := false, counted := false }

/-- The queue holds one entry, at a place, in a medium phase. -/
def sends (b : Body) (p : Place) (m : Medium) : State := link fun l => { l with outbound := [entry b p], medium := m }

def seat (x : EntryState) : RosterEntry := { RosterEntry.absent with state := x }

/-- The mirror of run 7 in a phase, with the positions of node 3 as given. -/
def mirror (p : Phase) (es : List RosterEntry) : Mirror :=
  { Mirror.reset with
    runNo := 7, fingerprint := 0xF00D, phase := p, step := if p = .stepping then some 0 else none, stepCount := some 2
    roster := List.replicate 12 .absent ++ es ++ List.replicate (116 - es.length) .absent }

def frame (b : Body) : Frame := { sender := 3, run := 7, body := b }

/-- A frame of node 3 stands at the head of the inbound queue. -/
def heads (b : Body) (m : Mirror) : State :=
  on fun st => { st with lkc := { st.lkc with inbound := [.frame (frame b) false] }, bmr := m }

/-- A marker stands at the head of the inbound queue. -/
def marker (e : Entry) (m : Mirror) : State :=
  on fun st => { st with lkc := { st.lkc with inbound := [e] }, bmr := m }

/-- Every socket stands in a run state. -/
def runs (r : RunState) (st : Station) : Station :=
  { st with stc := { st.stc with ctx := .all4 { RunCtx.reset with run := r, settle := some 9, settlePeriod := some 2000 } } }

def header : RunHeader := { run := 7, slot := 0, fingerprint := 0xF00D }

def toldStc (m : StcMsg) (r : RunState) : State :=
  on fun st => { runs r st with stc := { (runs r st).stc with inbox := [m] } }

def toldInc (m : IncMsg) (f : IncSocket → IncSocket) : State :=
  on fun st => { st with inc := { st.inc with inbox := [m], sockets := .all4 (f .reset) } }

def incIs (f : IncSocket → IncSocket) : State :=
  on fun st => { st with inc := { st.inc with sockets := .all4 (f .reset) } }

def windowIs (w : Window) : State :=
  on fun st => { st with gcu := { st.gcu with sockets := .all4 { mask := none, window := w, samples := [] } } }

def channelRec : ChannelRec :=
  { mode := .auto, preset := 0, min := -100, max := 100, sensitivity := 10, current := some 0, mark := false }

def toldCru (m : CruMsg) (q : CruRequest) (r : ChannelRec) : State :=
  on fun st => { st with cru := { inbox := [m], sockets := .all4 { table := some (.all4 r), request := q } } }

def toldSlu (m : SluMsg) (r : RunState) (p : Phase) (x : SluSocket) : State :=
  on fun st => { runs r st with bmr := mirror p [], slu := { inbox := [m], sockets := .all4 x } }

def portIs (p : Port) : State := on fun st => { st with mpc := { st.mpc with ports := .all4 p } }

def burst (n : Nat) : Burst := { id := n, kind := .probe, first := .ident, rest := [] }

def running (s : ExchangeStage) : Running :=
  { id := 4, kind := .adjust, order := .writeCh 1 5, rest := [.readCh 1], records := [], stage := s }

def fields : SealFields :=
  { number := 5000, run := 7, fingerprint := 0xF00D, node := 5, socket := 0, digest := 0, channels := .all4 0 }

/-- The only message of an inbox is heard. -/
theorem heard_alone {α : Type} (passes : α → α → Bool) (m : α) : Heard passes [m] m [] :=
  ⟨[], [], rfl, rfl, by simp⟩

/-- A message behind one it may overtake is heard. -/
theorem heard_second {α : Type} (passes : α → α → Bool) (x m : α) (h : passes m x = true) : Heard passes [x, m] m [x] :=
  ⟨[x], [], rfl, rfl, by simpa using h⟩

/-! ### Start-up: hypotheses met -/

/-- An image with its header and check code; what follows `start` is zero. -/
def payload (start : List Byte) : List Byte := start ++ List.replicate (1427 - start.length) 0

def image (start : List Byte) : List Byte :=
  let p := payload start
  [0xA4, 0xC7, 0x05, 0x99, (crc16 p).extractLsb' 8 8, (crc16 p).extractLsb' 0 8] ++ p

/-- Its header and check code pass, so the station section and the profiles decide. -/
theorem judgeImage_image (start : List Byte) (h : start.length ≤ 1427) :
    judgeImage (some (image start)) =
      match readStation (image start) 6 with
      | none => .fails .badImage false
      | some st =>
        match readProfiles (image start) st.enable with
        | none => .fails .badImage false
        | some ps => .passes st ps := by
  have hp : (payload start).length = 1427 := by simp [payload]; omega
  have hl : ¬ (image start).length < Config.imageBytes := by simp [image, hp, Config.imageBytes]
  have h1 : ((image start).drop 6).take (Config.imageBytes - 6) = payload start := by
    simp only [image, List.cons_append, List.nil_append, List.drop_succ_cons, List.drop_zero, Config.imageBytes]
    rw [List.take_of_length_le (by omega)]
  have h2 : word16 (image start) 4 = crc16 (payload start) := join16_extract _
  have h3 : word16 (image start) 0 = 0xA4C7 := by
    show join16 0xA4 0xC7 = 0xA4C7
    decide
  have h4 : nat16 (image start) 2 = Config.imageBytes := by
    show (join16 0x05 0x99).toNat = 1433
    decide
  cases h6 : readStation (image start) 6 with
  | none => simp [judgeImage, h1, h2, h3, h4, h6, hl]
  | some st =>
    cases h7 : readProfiles (image start) st.enable <;> simp [judgeImage, h1, h2, h3, h4, h6, h7, hl]

theorem test_stepRunsFrontCommand_premises : (on id).pending = [] ∧ (on id).Awake := by decide

theorem test_nothingActsUnderPowerOnReset_premises :
    State.reset.st.cfl.stage = .inReset ∧ Instr.refPulse ≠ .powerOnReset ∧
      ∀ straps r l f, Instr.refPulse ≠ .powerOnResetEnd straps r l f := by
  refine ⟨rfl, by decide, ?_⟩
  intro straps r l f h
  cases h

def readingAt (n : Nat) (x : CflStage) : State := on fun st => { st with cfl := { st.cfl with stage := x, attempts := n } }

theorem test_strapsAndStore_premises :
    State.reset.st.cfl.stage = .inReset ∧ (readingAt 1 .reading).st.cfl.stage = .reading ∧
      (readingAt 1 .reading).st.cfl.attempts + 1 < 3 ∧ judgeImage none = .fails .noStore true ∧
      (readingAt 1 .retryWait).st.cfl.stage = .retryWait ∧ 6 < (0x05 : Byte).toNat * 256 + (0x99 : Byte).toNat ∧
      6 < (0 : Byte).toNat * 256 + (7 : Byte).toNat ∧ (0 : Byte).toNat * 256 + (6 : Byte).toNat ≤ 6 := by
  decide +kernel

/-- Checks 2 to 4 of R183, each failing alone: the word, the length, and the check code of an image not there to its last byte. -/
theorem test_imageChecks_premises :
    let short : List Byte := [0xA4, 0xC7, 5, 0x99, 0xFF, 0xFF]
    ¬ ImageMarked [] ∧ (ImageMarked [0xA4, 0xC7, 5, 0x98] ∧ ¬ ImageLong [0xA4, 0xC7, 5, 0x98]) ∧
      ImageMarked short ∧ ImageLong short ∧ crc16 ((short.drop 6).take 1427) = word16 short 4 ∧ ¬ ImageWhole short := by
  decide +kernel

theorem image_checks (start : List Byte) (h : start.length ≤ 1427) :
    ImageMarked (image start) ∧ ImageLong (image start) ∧ ImageWhole (image start) := by
  have hp : (payload start).length = 1427 := by simp [payload]; omega
  refine ⟨?_, ?_, ?_, ?_⟩
  · show join16 0xA4 0xC7 = 0xA4C7
    decide
  · show (join16 0x05 0x99).toNat = 1433
    decide
  · simp [image, hp]
  · simp only [image, List.cons_append, List.nil_append, List.drop_succ_cons, List.drop_zero]
    rw [List.take_of_length_le (by omega)]
    exact (join16_extract _).symm

/-- The station section fails by a remap code of 4 or a shed rank of 8; the profile of an enabled socket 0 passes at its lowest
values and fails with Km 0. -/
theorem test_imageFields_premises :
    let low : List Byte := List.replicate 24 0 ++ [1] ++ List.replicate 17 0 ++ [1] ++ List.replicate 8 0 ++ [1] ++
      List.replicate 8 0 ++ [1] ++ List.replicate 8 0 ++ [1]
    StationInRange [] ∧ ¬ StationInRange [0, 0, 0, 0, 0, 0, 0, 4] ∧ ¬ StationInRange [0, 0, 0, 0, 0, 0, 0, 0, 0, 0, 0, 8] ∧
      (byteAt [0, 0, 0, 0, 0, 0, 1] 6).getLsbD (0 : Socket).val = true ∧ ProfileInRange low 0 ∧
      ¬ ProfileInRange [0, 0, 0, 0, 0, 0, 1] 0 := by
  simp only [StationInRange, ProfileInRange]
  decide +kernel

/-- A step record at the bounds of its kind. -/
def accuracyBytes (adjust : Byte) : List Byte :=
  [0, 0, 3, 232, 8, 255, 240, 189, 193, 0, 15, 66, 63, 0, 30, 132, 126, 4, adjust, 234, 96, 2, 88]

def startBytes (w : Byte) : List Byte := 2 :: List.replicate 18 0 ++ [0, 100, 0, 0, 0, w]

/-- A slot with a START step of W 1 is usable, and none with Kr 0 or W 0; ACCURACY is usable at its bounds, with no adjust
channel or channel 3, not with channel 4. -/
theorem test_slotFields_premises :
    SlotInRange (.all4 none) ([0, 0, 0, 1, 1] ++ startBytes 1) 0 ∧ ¬ SlotInRange (.all4 none) [] 0 ∧
      ¬ StepInRange (.all4 none) (startBytes 0) 0 ∧ StepInRange (.all4 none) (accuracyBytes 0xFF) 0 ∧
      StepInRange (.all4 none) (accuracyBytes 3) 0 ∧ ¬ StepInRange (.all4 none) (accuracyBytes 4) 0 := by
  have noProfile : ∀ (x : Socket) (p : Profile), (Quad.all4 none).get x = some p → (p.channels.get 3).mode ≠ .off :=
    fun x p hp => by rw [Quad.get_all4] at hp; cases hp
  refine ⟨⟨?_, ?_, ?_, ?_, fun k hk => ?_⟩, fun h => absurd h.1 (by decide +kernel),
    fun h => absurd (h.2.2.2.2 (by decide +kernel)) (by decide +kernel), ?_, ?_, fun h => ?_⟩
  iterate 4 decide +kernel
  · obtain rfl : k = 0 := by have hk : k < 1 := hk; omega
    repeat' first | apply And.intro | intro _
    all_goals first | decide +kernel | (rename_i h; exact absurd h (by decide +kernel))
  · repeat' first | apply And.intro | intro _
    all_goals first | decide +kernel | exact .inl (by decide +kernel) | (rename_i h; exact absurd (by decide +kernel) h)
  · repeat' first | apply And.intro | intro _
    all_goals first
      | decide +kernel
      | exact .inr ⟨3, by decide +kernel, noProfile⟩
      | (rename_i h; exact absurd (by decide +kernel) h)
  · have hn := (h.2.2.2.1 (by decide +kernel)).2.2.2.2.2.2.2.2.2.2.2.2.2
    have h18 : natAt (accuracyBytes 4) (0 + 18) = 4 := by decide +kernel
    rcases hn with hn | ⟨c, hc, -⟩
    · omega
    · have := c.isLt
      omega

/-- Both ways: the third attempt fails; an image that no further attempt mends, here with remap position 9. -/
theorem test_failedImage_premises :
    judgeImage none = .fails .noStore true ∧ 3 ≤ (readingAt 2 .reading).st.cfl.attempts + 1 ∧
      (readingAt 2 .reading).st.cfl.stage = .reading ∧ judgeImage (some (image [0, 9])) = .fails .badImage false := by
  refine ⟨rfl, by decide, rfl, ?_⟩
  rw [judgeImage_image _ (by decide)]
  decide +kernel

def sectionOf (j : Judgement) : Option (StationSection × Quad (Option Profile)) :=
  match j with
  | .passes sec ps => some (sec, ps)
  | .fails _ _ => none

/-- Usable images with a remap that names each position once, and with one that does not; both slots read as bad. -/
theorem test_usableImage_premises :
    (sectionOf (judgeImage (some (image [0, 3, 2, 1, 0])))).map (fun p => p.1.remap) = some ⟨3, 2, 1, 0⟩ ∧
      (sectionOf (judgeImage (some (image [])))).map (fun p => p.1.remap) = some ⟨0, 0, 0, 0⟩ ∧
      readSlot (.all4 none) (image []) 223 = none := by
  rw [judgeImage_image _ (by decide), judgeImage_image _ (by decide)]
  decide +kernel

/-! ### The link: hypotheses met -/

theorem test_listenEnds_premises :
    let s := link fun l => { l with link := .listen, medium := .objection }
    let t := link fun l => { l with link := .listen, medium := .objection, ordinary := true, followed := some (frame .pause) }
    let u := link fun l => { l with link := .listen, medium := .unknown }
    s.st.cfl.stage = .running ∧ s.st.lkc.link = .listen ∧ s.st.lkc.lrst = false ∧ s.Awake ∧ s.st.lkc.medium = .objection ∧
      (s.st.lkc.ordinary = false ∧ t.st.lkc.ordinary = true ∧ t.st.lkc.mark = false ∧
        t.st.lkc.followed = some (frame .pause) ∧ (frame .pause).sender = BitVec.ofNat 8 (3 : Node).val) ∧
      u.st.cfl.stage = .running ∧ u.st.lkc.link = .listen ∧ u.st.lkc.medium = .unknown ∧ u.st.driving = false := by
  decide

theorem test_roundsBegin_premises :
    (sends .pause .queued .free).st.lkc.outbound = [entry .pause .queued] ∧ (sends .pause .queued .free).st.lkc.link = .active ∧
      (link id).st.lkc.medium = .free ∧ (link id).st.lkc.outbound = [] ∧
      (sends .pause .onWire .frame).st.lkc.medium = .frame ∧
      (link fun l => { l with medium := .holdWait }).st.lkc.medium = .holdWait := by
  decide

/-- The station drives the round-start mark, and has a candidate in the round, when ACTIVE only: not in LISTEN, not in MUTE. -/
theorem test_roundStartDrive :
    let s := fun l => link fun k => { k with link := l, medium := .free, outbound := [entry .pause .queued] }
    let has := fun l => match exec .roundStartMark (s l) with
      | .next t => (t.st.entryAt .candidate).isSome
      | _ => false
    ((s .active).st.drivesRoundStart = true ∧ (s .listen).st.drivesRoundStart = false ∧ (s .mute).st.drivesRoundStart = false ∧
      (link id).st.drivesRoundStart = false) ∧ has .active = true ∧ has .listen = false ∧ has .mute = false := by
  decide

/-- The four checks of R43: the highest urgent slot alone, a hold, the node behind the rotating ID, no mark. -/
theorem test_roundIsDecided_premises :
    slotMarked 0x80000000 31 = true ∧ (∀ v : Node, v < 31 → slotMarked 0x80000000 v = false) ∧
      (∀ v : Node, slotMarked 0 v = false) ∧ slotMarked 0x80000001 0 = true ∧
      (∀ v : Node, slotMarked 0x80000001 v = true → roundRank 31 0 ≤ roundRank 31 v) ∧
      (sends (.bypass 0 0x21 0xFF) .candidate .round).st.entryAt .candidate =
        some (entry (.bypass 0 0x21 0xFF) .candidate) := by
  decide +kernel

theorem test_winnerPutsCandidate_premises :
    let urgent := sends (.bypass 0 0x21 0xFF) .candidate .round
    let ordinary := sends .pause .candidate .round
    urgent.Awake ∧ Station.urgentBody (.bypass 0 0x21 0xFF) = true ∧
      (∀ v : Node, slotMarked 0x20 v = true → urgent.st.cfl.node ≤ v) ∧ Station.urgentBody .pause = false ∧
      ordinary.st.entryAt .candidate = some (entry .pause .candidate) ∧ ordinary.st.marksHold = false ∧
      (∀ v : Node, slotMarked 0x60 v = true →
        roundRank ordinary.st.lkc.rotating ordinary.st.cfl.node ≤ roundRank ordinary.st.lkc.rotating v) ∧
      (slotMarked 0x10 4 = true ∧ (4 : Node) < ordinary.st.cfl.node ∧ slotMarked 0x10 ordinary.st.cfl.node = false) ∧
      roundRank ordinary.st.lkc.rotating 4 < roundRank ordinary.st.lkc.rotating ordinary.st.cfl.node ∧
      (entry .pause .candidate).withdrawn = false ∧
      (∀ x ∈ ordinary.st.lkc.outbound, x.place = .candidate → x.counted = false) ∧
      (∃ x ∈ [{ entry .pause .candidate with counted := true }], x.place = .candidate ∧ x.counted = true) := by
  decide +kernel

/-- A frame of another node and one of this station; a whole frame reads back, one with a wrong check code does not. -/
theorem test_frameIsJudged_premises :
    let own := sends .pause .onWire .frame
    let other := link fun l => { l with medium := .frame }
    other.Awake ∧ other.st.lkc.link ≠ .listen ∧ other.st.driving = false ∧
      own.Awake ∧ own.st.lkc.link ≠ .listen ∧ own.st.lkc.medium = .frame ∧
      own.st.entryAt .onWire = some (entry .pause .onWire) ∧ own.st.lkc.stopped = false ∧
      readFrame (frame .pause).encode = some (frame .pause) ∧ readFrame [3, 0x16, 7, 0, 0, 0] = none := by
  decide +kernel

/-- Bytes for each of the first three checks: a declared length of 41; an end two bytes early; a check code that differs; an
unknown kind, and a PAUSE of length 1, under check codes that agree; and a frame that passes. -/
theorem test_frameChecks_premises :
    let crc := fun (b : List Byte) => be16 (crc16 b)
    (40 < (41 : Byte).toNat ∧ (40 : Byte).toNat ≤ 40) ∧ ([0] : List Byte).length < (1 : Byte).toNat + 2 ∧
      crc16 [3, 0x16, 7, 0] ≠ (0 : Byte) ++ (0 : Byte) ∧
      (((0x17 : Byte), 1) ∉ kindLengths ∧ ((0x00 : Byte), 0) ∉ kindLengths ∧ ((0x16 : Byte), 0) ∈ kindLengths) ∧
      readFrame ([3, 0, 7, 0] ++ crc [3, 0, 7, 0]) = none ∧ readFrame ([3, 0x16, 7, 1, 9] ++ crc [3, 0x16, 7, 1, 9]) = none ∧
      readFrame ([3, 0x16, 7, 0] ++ crc [3, 0x16, 7, 0]) = some (frame .pause) := by
  decide +kernel

theorem test_ownDrives_premises :
    (link fun l => { l with medium := .objection }).st.lkc.link = .active ∧ (link id).st.lkc.medium = .free ∧
      (link fun l => { l with mirrorChecks := 1 }).st.lkc.mirrorChecks = 0 + 1 ∧ (link id).st.lkc.ownFlt = none ∧
      (link fun l => { l with ownFlt := some 1 }).st.lkc.ownFlt = some 1 ∧
      (link fun l => { l with ownFlt := some 2 }).st.lkc.ownFlt = some (1 + 1) := by
  decide

theorem test_cleanForeignFrame_premises :
    let s := link fun l => { l with medium := .objection, followed := some (frame .pause) }
    s.Awake ∧ s.st.lkc.mark = false ∧ s.st.lkc.followed = some (frame .pause) ∧ s.st.entryAt .onWire = none ∧
      (frame .pause).sender = BitVec.ofNat 8 (3 : Node).val ∧ (3 : Node) ≠ s.st.cfl.node ∧
      ({ frame .pause with sender := 5 } : Frame).sender = BitVec.ofNat 8 s.st.cfl.node.val ∧
      (link fun l => { l with link := .mute }).st.lkc.link = .mute := by
  decide

theorem test_cleanOwnFrame_premises :
    let s := fun b => link fun l =>
      { l with medium := .objection, followed := some (frame b), outbound := [entry b .onWire], ordinary := true }
    (s .pause).Awake ∧ (s .pause).st.entryAt .onWire = some (entry .pause .onWire) ∧
      Station.inAnnouncePlace .pause = false ∧ Station.isState .pause = false ∧
      Station.inAnnouncePlace (.announce 0 0 0 0) = true ∧
      Station.urgentBody (.join 0 0 (.all4 { cls := 0, fault := 0 })) = false ∧
      Station.isState (.state (on id).st.stateReport) = true ∧ (s .pause).st.rpu.queryPending = false := by
  decide +kernel

theorem test_objectedFrame_premises :
    let s := fun n => link fun l => { l with medium := .objection, outbound := [entry .pause .onWire], objections := n }
    (s 0).Awake ∧ (s 0).st.lkc.link = .active ∧ (s 0).st.entryAt .onWire = some (entry .pause .onWire) ∧
      (s 1).st.lkc.objections + 1 < 3 ∧ 3 ≤ (s 2).st.lkc.objections + 1 ∧ (s 3).st.lkc.objections ≤ 3 ∧
      Station.isState (.state (s 0).st.stateReport) = true ∧ Station.isState .pause = false ∧
      (sends .pause .onWire .frame).st.driving = true ∧
      (link fun l => { l with medium := .objection, mark := true }).st.entryAt .onWire = none := by
  decide +kernel

/-- A frame stopped by readback whose slot is clean all the same, sent by another node and by one with this station's
number. -/
theorem test_stoppedFrame_premises :
    let s := fun n => link fun l => { l with
      medium := .objection, outbound := [entry .pause .onWire], stopped := true, followed := some { frame .pause with sender := n } }
    (s 3).Awake ∧ (s 3).st.lkc.link = .active ∧ (s 3).st.entryAt .onWire = some (entry .pause .onWire) ∧
      (s 3).st.lkc.stopped = true ∧ (s 3).st.lkc.mark = false ∧ (s 3).st.lkc.objections ≤ 3 ∧
      (s 3).st.lkc.followed = some (frame .pause) ∧ (frame .pause).sender = BitVec.ofNat 8 (3 : Node).val ∧
      (3 : Node) ≠ (s 3).st.cfl.node ∧
      (s 5).st.lkc.followed = some { frame .pause with sender := BitVec.ofNat 8 (s 5).st.cfl.node.val } := by
  decide +kernel

/-- Its duplicate check fires in the clean slot (R51). -/
theorem test_stoppedFrame_duplicate :
    (match step { (link fun l => { l with
        medium := .objection, outbound := [entry .pause .onWire], stopped := true
        followed := some { frame .pause with sender := 5 } }) with pending := [.objectionSlotEnd false] } with
      | .next t => t.st.lkc.link == .mute && t.st.rpu.ownFault == .duplicate && t.st.rpu.muted
      | _ => false) = true := by
  decide +kernel

theorem test_linkResetEdge_premises :
    let s := link fun l => { l with inbound := [.benchFault, .linkReset] }
    s.st.cfl.stage = .running ∧ s.st.lkc.lrst = false ∧ Entry.linkReset ∈ tailMarkers s.st.lkc.inbound ∧
      Entry.linkReset ∉ tailMarkers (link id).st.lkc.inbound ∧ (link id).st.lkc.link ≠ .listen ∧
      s.st.onWireIs Station.isState = false ∧
      (sends (.state s.st.stateReport) .onWire .frame).st.onWireIs Station.isState = true ∧
      (link fun l => { l with medium := .reset, lrst := true }).st.lkc.ownLrst = none ∧
      (link fun l => { l with lrst := true }).st.lkc.medium ≠ .reset ∧ (readingAt 1 .reading).Awake ∧
      (readingAt 1 .reading).st.cfl.stage ≠ .running ∧ (readingAt 1 .reading).st.lkc.lrst = false ∧
      (readingAt 1 .reading).st.lkc.flt = false := by
  decide +kernel

theorem test_benchFaultEdge_premises :
    let s := link fun l => { l with inbound := [.benchFault, .linkReset], medium := .frame }
    s.st.cfl.stage = .running ∧ s.st.lkc.flt = false ∧ s.st.lkc.medium = .frame ∧
      (link id).st.lkc.medium ≠ .frame ∧ (link id).st.lkc.medium ≠ .objection ∧
      (sends (.state s.st.stateReport) .onWire .frame).st.onWireIs Station.isState = true ∧
      Entry.benchFault ∈ tailMarkers s.st.lkc.inbound ∧ Entry.benchFault ∉ tailMarkers (link id).st.lkc.inbound ∧
      (link fun l => { l with flt := true }).st.lkc.ownFlt = none := by
  decide +kernel

/-! ### The mirror: hypotheses met -/

theorem test_runOpen_premises :
    let s := heads (.runOpen 0 0xF00D 4294967295 1) (mirror .ended [seat .sealed])
    s.Awake ∧ s.Head (frame (.runOpen 0 0xF00D 4294967295 1)) false [] ∧ s.st.bmr.phase = .ended ∧
      (∀ e ∈ s.st.bmr.roster, e.state ≠ .claimed) ∧ s.st.table 0 = some table ∧ table.fingerprint = 0xF00D ∧
      (4294967295#32).toNat + (1#16).toNat - 1 ≤ 4294967295 ∧ 4294967295 < (4294967295#32).toNat + (2#16).toNat - 1 ∧
      ¬ s.st.bmr.EndDue ∧ ({ frame .pause with run := 0 } : Frame).run = 0 ∧ 1 < (2 : Byte).toNat ∧
      (mirror .joining []).phase.isOpen = true ∧ (∃ e ∈ (mirror .ended [seat .claimed]).roster, e.state = .claimed) ∧
      ¬ (s.st.bmr.phase.isOpen = true ∨ (s.st.bmr.phase = .ended ∧ ∃ e ∈ s.st.bmr.roster, e.state = .claimed)) ∧
      s.st.table 1 = none ∧ table.fingerprint ≠ 0xF00E := by
  decide +kernel

theorem test_join_premises :
    let js := Quad.all4 { cls := 7, fault := 10 : JoinSocket }
    let s := heads (.join 0x0F 0xF00D js) (mirror .joining [])
    s.Awake ∧ s.Head (frame (.join 0x0F 0xF00D js)) false [] ∧ s.Current 7 ∧ s.st.bmr.phase = .joining ∧
      (∀ x : Socket, (s.st.bmr.entry (positionOf (frame .pause) x)).state = .absent) ∧ (0xF00D = s.st.bmr.fingerprint) ∧
      (∀ x : Socket, (js.get x).fault.toNat ≤ 10) ∧ ¬ s.st.bmr.EndDue ∧
      (mirror .joining [seat .out]).entry 12 ≠ .absent ∧ (mirror .stepping []).phase ≠ .joining := by
  decide +kernel

theorem test_loadSet_premises :
    let s := heads (.loadSet 0 0x11) (mirror .joining [seat .active])
    let t := on fun st => { st with bmr := { mirror .stepping [seat .active] with stepComplete := true } }
    s.Awake ∧ s.Head (frame (.loadSet 0 0x11)) false [] ∧ s.Current 7 ∧ (∃ e ∈ s.st.bmr.roster, e.state = .active) ∧
      (∀ e ∈ s.st.bmr.roster, e.state = .active → e.lastVerdict = none) ∧
      (∀ e ∈ (mirror .joining []).roster, e.state ≠ .active) ∧ t.st.bmr.step = some 0 ∧ t.st.bmr.stepComplete = true ∧
      ¬ s.st.bmr.EndDue ∧ ¬ (t.st.bmr.phase = .joining ∧ (2 : Byte) = 0) ∧ ¬ (2#8).toNat = 0 + 1 := by
  decide +kernel

theorem test_verdict_premises :
    let b := Body.verdict 0 0 1 1 0 0 1 0
    let s := heads b (mirror .stepping [seat .active, seat .active])
    let t := heads b (mirror .stepping [seat .active, { seat .active with lastVerdict := some 0 }])
    let last := { mirror .stepping [seat .active] with stepCount := some 1 }
    s.Awake ∧ s.Head (frame b) false [] ∧ s.Current 7 ∧ s.st.bmr.step = some 0 ∧
      (s.st.bmr.entry (positionOf (frame b) 0)).state = .active ∧
      (s.st.bmr.entry (positionOf (frame b) 0)).lastVerdict ≠ some 0 ∧
      (13 ≠ positionOf (frame b) 0 ∧ (s.st.bmr.entry 13).state = .active ∧ (s.st.bmr.entry 13).lastVerdict ≠ some 0) ∧
      (t.st.bmr.entry 13).lastVerdict = some 0 ∧ t.st.bmr.stepComplete = false ∧ last.stepCount = some (0 + 1) ∧
      (∀ e ∈ (last.roster.set 12 (seat .out)), e.state ≠ .active) ∧
      ¬ s.st.bmr.EndDue ∧ (s.st.bmr.entry (positionOf (frame b) 2)).state ≠ .active := by
  decide +kernel

theorem test_bypass_premises :
    let b := Body.bypass 0 OutCause.shed.code 0
    let s := heads b (mirror .stepping [seat .active, seat .active])
    let t := heads b (mirror .sealing [seat .done])
    s.Awake ∧ s.Head (frame b) false [] ∧ s.Current 7 ∧ (s.st.bmr.entry (positionOf (frame b) 0)).state = .active ∧
      s.st.bmr.step = some 0 ∧ (13 ≠ positionOf (frame b) 0 ∧ (s.st.bmr.entry 13).state = .active) ∧
      (t.st.bmr.entry (positionOf (frame b) 0)).state = .done ∧ t.st.bmr.phase ≠ .stepping ∧ ¬ t.st.bmr.EndDue ∧
      working (t.st.bmr.entry (positionOf (frame b) 1)).state = false ∧
      (∀ e ∈ ((mirror .stepping [seat .active]).roster.set 12 (seat .out)), e.state ≠ .active) := by
  decide +kernel

theorem test_shedPauseResume_premises :
    let s := heads (.shed 7) (mirror .stepping [seat .active])
    let t := heads .resume { mirror .sealing [seat .done] with paused := true }
    s.Awake ∧ s.Head (frame (.shed 7)) false [] ∧ s.Current 7 ∧ (7#8).toNat ≤ 7 ∧ s.st.bmr.phase.isOpen = true ∧
      ¬ s.st.bmr.EndDue ∧ s.st.bmr.paused = false ∧ t.Head (frame .resume) false [] ∧ t.st.bmr.paused = true ∧
      ¬ t.st.bmr.EndDue ∧ (mirror .ended []).phase.isOpen = false := by
  decide +kernel

theorem test_abortAndFault_premises :
    let s := heads .runAbort (mirror .sealing [seat .done, seat .claimed])
    let t := marker .benchFault (mirror .ended [seat .claimed])
    s.Awake ∧ s.Head (frame .runAbort) false [] ∧ s.Current 7 ∧ s.st.bmr.phase.isOpen = true ∧
      t.st.lkc.inbound = [.benchFault] ∧ t.st.bmr.phase.isOpen = false := by
  decide +kernel

theorem test_markerQueryAndStrange_premises :
    let s := marker .linkReset (mirror .stepping [seat .active])
    let t := heads (.query 5) (mirror .sealing [seat .done])
    s.Awake ∧ s.st.lkc.inbound = [.linkReset] ∧ ¬ s.st.bmr.EndDue ∧ t.Head (frame (.query 5)) false [] ∧
      ¬ t.st.bmr.EndDue ∧ (5#8).toNat = t.st.cfl.node.val ∧ takesRunFrame .takeShed (.shed 0) = true ∧
      (frame (.shed 0)).run ≠ (heads (.shed 0) .reset).st.bmr.runNo ∧
      (let j := Body.join 0 0 (.all4 { cls := 0, fault := 0 })
       let own := fun b => marker (.frame (frame b) true) .reset
       (own j).Head (frame j) true [] ∧ takesRunFrame .takeJoin j = true ∧ ¬ (own j).st.bmr.EndDue ∧
         (own (.sealClaim 3)).Head (frame (.sealClaim (BitVec.ofNat 8 (3 : Socket).val))) true []) := by
  decide +kernel

theorem test_poolExtend_premises :
    let s := heads (.poolExtend 4294967295 1) (mirror .sealing [seat .done])
    let t := heads (.poolExtend 9 2) { mirror .sealing [seat .sealWait] with waiting := [12], highWater := 8 }
    s.Awake ∧ s.Head (frame (.poolExtend 4294967295 1)) false [] ∧ s.Current 7 ∧ s.st.bmr.phase.isOpen = true ∧
      s.st.bmr.pool.length < 4 ∧ s.st.bmr.highWater < (4294967295#32).toNat ∧ 1 ≤ (1#16).toNat ∧
      (4294967295#32).toNat + (1#16).toNat - 1 ≤ 4294967295 ∧ ¬ s.st.bmr.EndDue ∧ s.st.bmr.waiting = [] ∧
      t.st.bmr.pool = [] ∧ t.st.bmr.waiting.Nodup ∧ (∀ i ∈ t.st.bmr.waiting, i < t.st.bmr.roster.length) ∧
      t.st.bmr.highWater < (9#32).toNat ∧ (8#32).toNat ≤ t.st.bmr.highWater := by
  decide +kernel

theorem test_sealClaim_premises :
    let b := Body.sealClaim 0
    let s := heads b { mirror .sealing [seat .done] with pool := [{ first := 5000, count := 1, next := 0 }] }
    s.Awake ∧ s.Head (frame b) false [] ∧ s.Current 7 ∧ (s.st.bmr.entry (positionOf (frame b) 0)).state = .done ∧
      s.st.bmr.pool = { first := 5000, count := 1, next := 0 } :: [] ∧ (mirror .sealing [seat .done]).pool = [] ∧
      ¬ s.st.bmr.EndDue ∧ (s.st.bmr.entry (positionOf (frame b) 1)).state ≠ .done ∧ (mirror .ended []).phase ≠ .sealing ∧
      3 < (4#8).toNat ∧ (heads (.sealClaim 4) s.st.bmr).Head (frame (.sealClaim 4)) false [] := by
  decide +kernel

theorem test_sealOutcome_premises :
    let b := Body.sealDone 0 5000 0
    let s := heads b (mirror .sealing [{ seat .claimed with number := some 5000 }])
    s.Awake ∧ s.Head (frame b) false [] ∧ s.Current 7 ∧ (5000 : W32) ≠ 0 ∧
      (s.st.bmr.entry (positionOf (frame b) 0)).state = .claimed ∧
      (s.st.bmr.entry (positionOf (frame b) 0)).number = some (5000#32).toNat ∧
      (s.st.bmr.entry (positionOf (frame b) 0)).number ≠ some (5001#32).toNat ∧ ¬ s.st.bmr.EndDue ∧
      (s.st.bmr.entry (positionOf (frame b) 1)).state ≠ .claimed := by
  decide +kernel

/-- A cause next to a known one is none of the five. -/
theorem test_sealSpoilCause_premises :
    (∀ k : SpoilCause, (0x18 : Byte) ≠ k.code) ∧
      (heads (.sealSpoil 0 5000 0x18) (mirror .sealing [seat .claimed])).Head (frame (.sealSpoil 0 5000 0x18)) false [] ∧
      ¬ (mirror .sealing [seat .claimed]).EndDue := by
  refine ⟨fun k => by cases k <;> decide, rfl, by decide +kernel⟩

theorem test_announce_premises :
    let b := Body.announce 0 0 0 0
    let s := heads b (mirror .stepping [seat .active, seat .sealed])
    let t := heads b (mirror .stepping [seat .done, seat .claimed])
    t.st.bmr.step = some 0 ∧ (∀ x : Socket, (t.st.bmr.entry (positionOf (frame b) x)).state ≠ .active) ∧
      s.st.bmr.step = some 0 ∧ s.Awake ∧ s.Head (frame b) false [] ∧ inRunOrClaimed (s.st.bmr.entry (positionOf (frame b) 0)).state = true ∧
      (s.st.bmr.entry (positionOf (frame b) 0)).state = .active ∧ s.st.bmr.phase = .stepping ∧
      (mirror .sealing []).phase ≠ .stepping := by
  decide +kernel

theorem test_sealedAndOut_premises :
    let s := heads (.announce 0 0 0 0) (mirror .sealing [seat .sealed, seat .sealWait])
    s.st.bmr.WaitingSound ∧ Instr.takeAnnounce ≠ .powerOnReset ∧ Instr.takeAnnounce ≠ .takeRunOpen ∧
      (s.st.bmr.entry 12).state = .sealed := by
  decide +kernel

/-! ### The Step Controller: hypotheses met -/

/-- With a socket enabled, with none, and a table refusal behind each kind of announce-place entry. -/
theorem test_runOpenedContexts_premises :
    let s := toldStc (.runOpened header) .idle
    let t := on fun st => { st with cfl := { st.cfl with station := none }, stc := { st.stc with inbox := [.runOpened header] } }
    s.Awake ∧ s.st.stc.inbox = .runOpened header :: [] ∧ s.st.enabled 0 = true ∧ (∀ x, t.st.enabled x = false) ∧
      (∀ e ∈ t.st.lkc.outbound, Station.inAnnouncePlace e.body = false) ∧
      Heard StcMsg.overtakes (toldStc (.tableRefusal 7 1) .idle).st.stc.inbox (.tableRefusal 7 1) [] ∧
      Station.isJoin (.join 0 0 (.all4 { cls := 0, fault := 0 })) = true ∧ Station.isJoin (.announce 0 0 0 0) = false := by
  refine ⟨by decide, rfl, by decide, by decide, by decide, heard_alone _ _, by decide, by decide⟩

theorem test_joinOutcomes_premises :
    let s := toldStc (.joinOutcome 0 (.joined 7)) .joining
    let t := on fun st => { s.st with stc := { s.st.stc with
      ctx := { s.st.stc.ctx with s1 := .reset, s2 := .reset, s3 := .reset } }, lkc := st.lkc }
    s.Awake ∧ (s.st.ctx 0).run = .joining ∧ Heard StcMsg.overtakes s.st.stc.inbox (.joinOutcome 0 (.joined 7)) [] ∧
      ((1 : Socket) ≠ 0 ∧ (s.st.ctx 1).run = .joining ∧ s.st.stc.joinedMask.get 1 = false) ∧
      Heard StcMsg.overtakes [.joinOutcome 1 (.joined 7), .joinOutcome 0 (.fault .noMeter)] (.joinOutcome 0 (.fault .noMeter))
        [.joinOutcome 1 (.joined 7)] ∧
      t.st.stc.joinPlaced = false ∧ (∀ y, y ≠ 0 → (t.st.ctx y).run = .joining → t.st.stc.joinedMask.get y = true) := by
  refine ⟨by decide, rfl, heard_alone _ _, by decide, heard_second _ _ _ (by decide), rfl, by decide⟩

/-- The last outcome's JOIN stands last, or waits behind an ANNOUNCE, or takes the place of an older JOIN (R55). -/
theorem test_joinOffered :
    let s := fun (q : List OutEntry) => on fun st => { (toldStc (.joinOutcome 0 (.joined 7)) .joining).st with
      stc := { (toldStc (.joinOutcome 0 (.joined 7)) .joining).st.stc with joinedMask := .all4 true }
      lkc := { st.lkc with outbound := q } }
    let js := Quad.all4 { cls := 0, fault := 0 : JoinSocket }
    let left := fun q => match exec (.joinOutcome 0) (s q) with
      | .next t => some (t.st.lkc.outbound.map fun e => Station.isJoin e.body && e.run == 0, t.st.lkc.deferredJoin.isSome)
      | _ => none
    left [] = some ([true], false) ∧ left [entry (.announce 0 0 0 0) .queued] = some ([false], true) ∧
      left [entry (.join 0 0 js) .queued] = some ([true], false) ∧ left [entry (.join 0 0 js) .onWire] = some ([false], true) := by
  decide +kernel

theorem test_ownJoinResult_premises :
    let s := toldStc (.ownJoin true 0x0F) .joining
    let t := toldStc (.ownJoin false 0) .joining
    s.Awake ∧ Heard StcMsg.overtakes s.st.stc.inbox (.ownJoin true 0x0F) [] ∧ (0x0F#8).getLsbD (3 : Socket).val = true ∧
      (s.st.ctx 3).run = .joining ∧ (∀ x, (s.st.incSocket x).deferred = none) ∧
      Heard StcMsg.overtakes t.st.stc.inbox (.ownJoin false 0) [] ∧
      ((incIs fun i => { i with deferred := some .overburden }).st.incSocket 0).deferred = some .overburden := by
  refine ⟨by decide, heard_alone _ _, by decide, rfl, by decide, heard_alone _ _, rfl⟩

/-- LOAD_SET at step 0 for JOINED sockets, at step 1 for passed ones; one unfinished join; one entry gone. -/
theorem test_loadSetSockets_premises :
    let own := fun x => List.replicate 20 RosterEntry.absent ++ List.replicate 4 (seat x)
    let s := on fun st => { (toldStc (.loadSet 0 false false) .joined).st with bmr := { st.bmr with roster := own .active } }
    let passed := { RunCtx.reset with
      run := .stepDone
      verdicts := [{ step := 0, loadPoint := 0, verdict := .pass, mean := 0, spread := 0, attempts := 1, adjustments := 0 }] }
    s.Awake ∧ Heard StcMsg.overtakes s.st.stc.inbox (.loadSet 0 false false) [] ∧ (s.st.ownEntry 3).state = .active ∧
      (s.st.ctx 3).run = .joined ∧ passed.passed = true ∧ ((toldStc .paused .joining).st.ctx 0).run = .joining ∧
      ((on fun st => { s.st with bmr := { st.bmr with roster := own .done } }).st.ownEntry 0).state ≠ .active ∧
      ((toldStc .paused .idle).st.ctx 0).run.stepping = false := by
  refine ⟨by decide, heard_alone _ _, by decide +kernel, rfl, by decide, rfl, by decide +kernel, rfl⟩

/-- R71: the record is that of the run the STC is at, whatever slot the mirror's next run names. -/
theorem test_stepRecord_runSlot :
    let next := { table with steps := [{ accuracyStep with settle := 100 }] }
    let s := on fun st => { st with
      cfl := { st.cfl with slotB := some next }, bmr := { st.bmr with slot := 1 }, stc := { st.stc with slot := 0 } }
    s.st.table s.st.stc.slot = some table ∧ table.steps[0]? = some accuracyStep ∧ (s.st.stepRec 0).settle = 2000 ∧
      (match exec .stcRunOpened (on fun st => { s.st with
          stc := { st.stc with inbox := [.runOpened { header with slot := 1 }] } }) with
        | .next t => some (t.st.stepRec 0).settle
        | _ => none) = some 100 := by
  decide +kernel

/-- A socket with a PASS of step 0 whose entry is already DONE when LOAD_SET(1) is taken goes OUT (R71, R85). -/
theorem test_loadSet_entryDone :
    (match exec .stcLoadSet (on fun st => { (toldStc (.loadSet 1 false false) .stepDone).st with
        bmr := { st.bmr with roster := List.replicate 24 (seat .done), stepCount := some 2 }
        stc := { (toldStc (.loadSet 1 false false) .stepDone).st.stc with ctx := .all4 { RunCtx.reset with
          run := .stepDone
          verdicts := [{ step := 0, loadPoint := 0, verdict := .pass, mean := 0, spread := 0, attempts := 1,
                         adjustments := 0 }] } } }) with
      | .next t => (t.st.ctx 0).run == .out
      | _ => false) = true := by
  decide +kernel

theorem test_settledSockets_premises :
    let s := toldStc (.maskEnd 0) .settling
    let masking := on fun st => { runs .settling st with gcu := { st.gcu with inbox := [.writeBurstEnd 2 300] } }
    let low := on fun st => { runs .ready st with gcu := { st.gcu with rdy := false } }
    s.Awake ∧ (s.st.ctx 0).run = .settling ∧ (s.st.ctx 0).settle = some 9 ∧ 1 < 9 ∧
      ({ s.st.ctx 0 with settle := some 1 }).settle = some 1 ∧ s.st.masked 0 = false ∧
      masking.st.masked 2 = true ∧ Heard StcMsg.overtakes s.st.stc.inbox (.maskEnd 0) [] ∧ low.st.gcu.rdy = false ∧
      low.st.rdyPull = false ∧ (low.st.ctx 0).run = .ready ∧
      { RunCtx.reset with run := .settling, waitMask := true }.waitMask = true := by
  refine ⟨by decide, rfl, rfl, by decide, rfl, by decide, by decide, heard_alone _ _, rfl, by decide, rfl, rfl⟩

/-- R77: the disturbance restarts the settle timer, and the expiry that comes after it does nothing. -/
theorem test_settleExpiry_afterDisturbance :
    (match exec .stcDisturbance (on fun st => { (toldStc .disturbance .settling).st with
        bmr := { st.bmr with roster := List.replicate 24 (seat .active) } }) with
      | .next t => (match exec (.settleTimerExpiry 0) t with
        | .next u => (u.st.ctx 0).run == .settling && (u.st.ctx 0).settle == some 2000
        | _ => false)
      | _ => false) = true := by
  decide +kernel

theorem test_disturbance_premises :
    let s := toldStc .disturbance .measuring
    s.Awake ∧ s.st.gcu.rdy = true ∧ ((s.st.beforeVoids fun _ => true).ctx 0).run = .measuring ∧
      (∀ x, (((toldStc .disturbance .ready).st.beforeVoids fun _ => true).ctx x).run ≠ .measuring) ∧
      Heard StcMsg.overtakes s.st.stc.inbox .disturbance [] ∧ (s.st.ctx 0).run.stepping = true ∧ s.st.left 0 = true ∧
      (on fun st => { s.st with bmr := { st.bmr with
        roster := List.replicate 20 RosterEntry.absent ++ List.replicate 4 (seat .active) } }).st.left 0 = false := by
  refine ⟨by decide, rfl, rfl, by decide, heard_alone _ _, rfl, by decide +kernel, by decide +kernel⟩

theorem test_pauseAndResume_premises :
    (toldStc .paused .measuring).Awake ∧
      Heard StcMsg.overtakes (toldStc .paused .measuring).st.stc.inbox .paused [] ∧
      Heard StcMsg.overtakes (toldStc .resumed .held).st.stc.inbox .resumed [] ∧
      ((toldStc .paused .measuring).st.ctx 0).run = .measuring :=
  ⟨by decide, heard_alone _ _, heard_alone _ _, rfl⟩

def report (timedOut : Bool) (l : List Sample) (mean : Int) (spread : Nat) : WindowReport :=
  { timedOut := timedOut, samples := l, mean := mean, spread := spread }

def sample (e : Int) (x : SampleStatus) : Sample := { gate := 1, count := some 1, error := e, status := x }

/-- Each check of R79 at its bound: the spread 100, the limits -500 and 500, the attempts 3. -/
theorem test_windowEnd_premises :
    let s := toldStc (.accuracyEnd 0 (report false [sample 500 .ok] 500 100)) .measuring
    let p := s.st.curStep
    s.Awake ∧ Heard StcMsg.overtakes s.st.stc.inbox (.accuracyEnd 0 (report false [sample 500 .ok] 500 100)) [] ∧
      (s.st.ctx 0).run = .measuring ∧ (s.st.ctx 0).attempt < p.attempts ∧ p.spread < 101 ∧ ¬ p.spread < 100 ∧
      p.attempts ≤ { s.st.ctx 0 with attempt := 3 }.attempt ∧ p.lower ≤ -500 ∧ (500 : Int) ≤ p.upper ∧ p.upper < (501 : Int) ∧
      (sample 999999 .overRange).status = .overRange ∧ s.st.bmr.paused = false ∧ (s.st.ctx 0).disturbed = false ∧
      s.st.rdyHigh = true ∧ adjustChannel p.adjust = some 1 ∧ s.st.adjustable 0 1 = false ∧
      (toldCru (.runOpened header) .none channelRec).st.adjustable 0 1 = true ∧
      Heard StcMsg.overtakes (toldStc (.timedEnd 0 .pass 1) .measuring).st.stc.inbox (.timedEnd 0 .pass 1) [] := by
  refine ⟨by decide, heard_alone _ _, rfl, by decide, by decide, by decide, by decide, by decide, by decide, by decide, rfl,
    rfl, rfl, by decide, by decide, by decide, by decide, heard_alone _ _⟩

/-- A window that ended before the disturbance, the pause or the edge of RDY is evaluated: a PASS stands with its VERDICT, and a
failed attempt leads to the next, which the event then settles or holds (R77, R88, R105). -/
theorem test_endedWindowIsEvaluated :
    let after := fun (m : StcMsg) (r : WindowReport) (c : Instr) =>
      match exec c (on fun st => { (toldStc m .measuring).st with
        bmr := { st.bmr with roster := List.replicate 24 (seat .active), paused := m == .paused }
        stc := { (toldStc m .measuring).st.stc with inbox := [m, .accuracyEnd 0 r] } }) with
      | .next t => some ((t.st.ctx 0).run, (t.st.ctx 0).attempt, (t.st.ctx 1).run, t.st.lkc.outbound.length)
      | _ => none
    let pass := report false [sample 500 .ok] 500 100
    let fail := report true [] 0 0
    [after .disturbance pass .stcDisturbance, after .disturbance fail .stcDisturbance, after .paused pass .stcPaused,
      after .paused fail .stcPaused, after .mute pass .rdyFallingEdge, after .mute fail .rdyFallingEdge,
      after (.ended .aborted) pass .stcRunEnded] =
    [some (.stepDone, 1, .settling, 1), some (.settling, 2, .settling, 0), some (.stepDone, 1, .held, 1),
      some (.held, 2, .held, 0), some (.stepDone, 1, .settling, 1), some (.settling, 2, .settling, 0),
      some (.out, 1, .out, 0)] := by
  decide +kernel

/-- The premises of the clauses on beforeVoids: one end waits, or none does. -/
theorem test_beforeVoids_premises :
    let r := report false [sample 500 .ok] 500 100
    let s := toldStc (.accuracyEnd 0 r) .measuring
    (s.st.ctx 0).run = .measuring ∧ .maskEnd 0 ∉ ([] : List StcMsg) ∧
      Heard StcMsg.overtakes s.st.stc.inbox (.accuracyEnd 0 r) [] ∧
      Heard StcMsg.overtakes (toldStc (.timedEnd 0 .pass 1) .measuring).st.stc.inbox (.timedEnd 0 .pass 1) [] ∧
      (∀ m ∈ (toldStc .disturbance .measuring).st.stc.inbox, m.windowEnd 0 = none) :=
  ⟨rfl, by simp, heard_alone _ _, heard_alone _ _, by decide⟩

theorem test_adjustmentOutcome_premises :
    let s := toldStc (.adjusted 0 .ok) .adjusting
    s.Awake ∧ Heard StcMsg.overtakes s.st.stc.inbox (.adjusted 0 .ok) [] ∧ (s.st.ctx 0).run = .adjusting ∧
      s.st.stc.runEnded = none ∧ { s.st.ctx 0 with lastWindow := some (700, 3) }.lastWindow = some (700, 3) ∧
      { s.st.stc with runEnded := some .aborted }.runEnded = some .aborted ∧
      Heard StcMsg.overtakes (toldStc (.maskEnd 0) .masked).st.stc.inbox (.maskEnd 0) [] ∧
      ((toldStc (.maskEnd 0) .masked).st.ctx 0).run = .masked ∧ s.st.bmr.paused = false ∧ s.st.rdyHigh = true :=
  ⟨by decide, heard_alone _ _, rfl, rfl, rfl, rfl, heard_alone _ _, rfl, rfl, by decide⟩

/-- A passed and a failed socket at the end of a step; the run's end with sockets MEASURING. -/
theorem test_stepEndAndRunEnd_premises :
    let s := on fun st => { (toldStc (.stepComplete 0 true) .stepDone).st with
      bmr := { st.bmr with
        stepCount := some 1, roster := List.replicate 20 RosterEntry.absent ++ List.replicate 4 (seat .done) } }
    let earlier := on fun _ => { s.st with bmr := { s.st.bmr with stepCount := some 2 } }
    let passedGone := on fun st => { s.st with bmr := st.bmr }
    let v := fun d => { step := 0, loadPoint := 0, verdict := d, mean := 0, spread := 0, attempts := 1, adjustments := 0 : VerdictRecord }
    s.Awake ∧ Heard StcMsg.overtakes s.st.stc.inbox (.stepComplete 0 true) [] ∧
      passedGone.st.left 0 = true ∧ (s.st.modCtx 0 fun c => { c with verdicts := [v .pass] }).left 0 = false ∧
      (s.st.modCtx 0 fun c => { c with verdicts := [v .pass] }).left 1 = true ∧
      (earlier.st.modCtx 0 fun c => { c with verdicts := [v .pass] }).left 0 = true ∧
      { s.st.ctx 0 with verdicts := [v .pass] }.passed = true ∧
      { s.st.ctx 0 with verdicts := [v (.fail .limit)] }.failed = true ∧
      ({ seat .out with out := some .failed }).out = some .failed ∧ (seat .done).out = none ∧
      Heard StcMsg.overtakes (toldStc (.ended .aborted) .measuring).st.stc.inbox (.ended .aborted) [] ∧
      (RunState.measuring.stepping = true ∧ RunState.measuring ≠ .adjusting) := by
  refine ⟨by decide, heard_alone _ _, by decide +kernel, by decide +kernel, by decide +kernel, by decide +kernel, by decide,
    by decide, rfl, rfl, heard_alone _ _, by decide⟩

theorem test_localBypassAndMute_premises :
    let s := toldStc (.bypass 0 .shed) .measuring
    let j := toldStc (.bypass 0 .overburden) .joining
    s.Awake ∧ Heard StcMsg.overtakes s.st.stc.inbox (.bypass 0 .shed) [] ∧ (s.st.ctx 0).run.stepping = true ∧
      ((toldStc (.bypass 0 .shed) .joined).st.ctx 0).run = .joined ∧ (j.st.ctx 0).run = .joining ∧
      j.st.stc.joinPlaced = false ∧ ((1 : Socket) ≠ 0 ∧ (j.st.ctx 1).run = .joining ∧ j.st.stc.joinedMask.get 1 = false) ∧
      { j.st.stc with joinPlaced := true, joinedMask := .all4 true }.joinedMask.get 0 = true ∧
      (∀ y, y ≠ 0 → { j.st.stc with joinedMask := .all4 true }.joinedMask.get y = true) ∧
      Heard StcMsg.overtakes (toldStc .mute .idle).st.stc.inbox .mute [] :=
  ⟨by decide, heard_alone _ _, rfl, rfl, rfl, rfl, by decide, rfl, by decide, heard_alone _ _⟩

/-! ### The Gate Counter Unit: hypotheses met -/

def gates : GateParams := { n := 10, s := 2, timeoutMs := 5000, km := 1000, kr := 6000000 }

/-- The gate goes on at 8 pulses and closes at 9; gate 1 of 2 is followed by another, gate 2 is the last. -/
theorem test_pulses_premises :
    let s := windowIs (.accuracy gates none 5000)
    s.Awake ∧ s.st.socketAt 3 = some 3 ∧ s.st.enabled 3 = true ∧ s.st.masked 3 = false ∧
      (s.st.gcuSocket 3).window = .accuracy gates none 5000 ∧ 8 + 1 < gates.n ∧ gates.n ≤ 9 + 1 ∧ 1 < gates.s ∧ gates.s ≤ 2 ∧
      ((windowIs .none).st.gcuSocket 0).window = .none ∧ ((windowIs (.creep 60 9 0)).st.gcuSocket 0).window = .creep 60 9 0 ∧
      ((windowIs (.creep 60 9 1)).st.gcuSocket 0).window = .creep 60 9 (0 + 1) ∧
      ((windowIs (.start 60 9 0)).st.gcuSocket 0).window = .start 60 9 0 ∧
      (∀ x, State.reset.st.socketAt 0 = some x → State.reset.st.enabled x = false ∨ State.reset.st.masked x = true) := by
  decide

/-- The worked examples of R101, midpoints and both bounds among them. -/
theorem test_gateErrors :
    (gateSample gates 1 59940).error = 1001 ∧ (gateSample gates 1 60012).error = -200 ∧ (gateSample gates 1 60000).error = 0 ∧
      (gateSample gates 1 120000).error = -500000 ∧ (gateSample gates 1 29000).error = 999999 ∧
      (gateSample gates 1 29000).status = .overRange ∧ (gateSample gates 1 0).error = 999999 ∧
      (gateSample { gates with n := 1, km := 1, kr := 2000001 } 1 2000000).error = 1 ∧
      (gateSample { gates with n := 1, km := 1, kr := 1999999 } 1 2000000).error = -1 := by
  decide

/-- The rounding's own hypothesis, at a midpoint: 0.5 becomes 1. -/
theorem test_gateErrorIsRounded_premises :
    (2 * ((1000000 : Int) - 1 * 2000000).natAbs = 2000000 ∧ (1000000 : Int).natAbs < ((1 : Int) * 2000000).natAbs) ∧
      (0 : Int) < (2000000 * 1 : Nat) := by
  decide

theorem test_windowTimers_premises :
    (windowIs (.accuracy gates (some { number := 2, pulses := 9, openedAt := 0 }) 1)).Awake ∧
      ((windowIs (.accuracy gates none 1)).st.gcuSocket 0).window = .accuracy gates none 1 ∧
      ((windowIs (.accuracy gates none 2)).st.gcuSocket 0).window = .accuracy gates none (1 + 1) ∧
      ((windowIs (.creep 60 1 1)).st.gcuSocket 0).window = .creep 60 1 1 ∧
      ((windowIs (.start 60 1 0)).st.gcuSocket 0).window = .start 60 1 0 ∧
      ((windowIs .none).st.gcuSocket 0).window = .none := by
  decide

/-- Errors whose sum falls midway, -3 over 2, with an OVER_RANGE sample beside them: the mean is -2, the spread 1. -/
theorem test_meanAndSpread :
    let l := [sample (-1) .ok, sample 999999 .overRange, sample (-2) .ok]
    okErrors l = [-1, -2] ∧ (2 * ((-3 : Int) - (-2) * 2).natAbs = 2 ∧ (-3 : Int).natAbs < ((-2 : Int) * 2).natAbs) ∧
      meanOf (okErrors l) = -2 ∧ spreadOf (okErrors l) = 1 ∧ okErrors [sample 999999 .overRange] = [] := by
  decide

/-- A pulse closes gate 1 and restarts the timer; the expiry that comes after it does nothing (R102). -/
theorem test_gateTimeout_afterPulse :
    (match exec (.meterPulse 0) (windowIs (.accuracy { gates with n := 1 } (some { number := 1, pulses := 0, openedAt := 0 }) 1)) with
      | .next t => (match exec (.gateTimeout 0) t with
        | .next u => u == t
        | _ => false)
      | _ => false) = true := by
  decide +kernel

theorem test_maskFollowsBursts_premises :
    let s := on fun st => { st with gcu := { st.gcu with inbox := [.writeBurstEnd 0 300] } }
    let t := fun n => on fun st =>
      { st with gcu := { st.gcu with sockets := .all4 { mask := some n, window := .none, samples := [] } } }
    s.Awake ∧ Heard GcuMsg.overtakes s.st.gcu.inbox (.writeBurstEnd 0 300) [] ∧ ((t 1).st.gcuSocket 0).mask = some 1 ∧
      ((t 2).st.gcuSocket 0).mask = some (1 + 1) ∧ (∀ k, .writeBurstEnd 0 k ∉ (t 1).st.gcu.inbox) ∧
      .writeBurstEnd 0 300 ∈ s.st.gcu.inbox ∧ Heard GcuMsg.overtakes [.writeBurstEnd 0 300, .runOpened header]
        (.runOpened header) [.writeBurstEnd 0 300] :=
  ⟨by decide, heard_alone _ _, rfl, rfl, fun _ => List.not_mem_nil, by decide,
    heard_second _ _ _ (by decide)⟩

/-- R160: a mask whose report is taken 3 ms late runs for 497 ms more, and one taken after its time is at its end. -/
theorem test_maskRunsFromBurstEnd :
    let late := fun n => on fun st =>
      { st with gcu := { st.gcu with inbox := [.writeBurstEnd 0 n] } : Station }.tick.tick.tick
    let mask := fun n => match exec (.writeBurstEnd 0) (late n) with
      | .next t => (t.st.gcuSocket 0).mask
      | _ => none
    mask 500 = some 497 ∧ mask 2 = some 1 ∧ (late 500).st.masked 0 = true := by
  decide +kernel

/-! ### The Insertion Controller: hypotheses met -/

def identReply (cls : W16) (serial : BitVec 64) (locked : Bool) : ExchangeRecord :=
  { order := .ident, outcome := .ok, reply := some (.ident cls serial (.all4 true) locked) }

def burstReport (k : BurstKind) (r : Result) (l : List ExchangeRecord) : BurstReport :=
  { id := 4, kind := k, result := r, records := l }

/-- The resistance at, just below and just above each bound of the profile; replies that agree, differ and are locked. -/
theorem test_probeCycles_premises :
    let r := burstReport .probe .ok [identReply 7 1 false]
    let s := toldInc (.probeEnd 0 r) fun i => { i with state := .probing, cycle := .classify 4 }
    let d := incIs fun i => { i with state := .probing, cycle := .detect 1 }
    let e := on fun st => { st with inc := { st.inc with idle := true } }
    Heard IncMsg.overtakes (toldInc .startUpEnd id).st.inc.inbox .startUpEnd [] ∧
      (e.st.cfl.stage = .running ∧ e.st.inc.idle = true ∧ e.st.bmr.phase = .closed ∧ e.st.enabled 0 = true ∧
        (e.st.incSocket 0).state = .bypassed) ∧
      (d.Awake ∧ (d.st.incSocket 0).cycle = .detect 1 ∧ d.st.profile 0 = some profile ∧ profile.rhi < 1001 ∧
        profile.rlo ≤ 100 ∧ 1000 ≤ profile.rhi ∧ 99 < profile.rlo ∧ (d.st.incSocket 0).join ≠ .waitCycle ∧
        (d.st.incSocket 0).join ≠ .freshCycle) ∧
      Heard IncMsg.overtakes s.st.inc.inbox (.probeEnd 0 r) [] ∧ (s.st.incSocket 0).cycle = .classify r.id ∧
      (s.st.incSocket 0).join ≠ .waitCycle ∧ (s.st.incSocket 0).join ≠ .freshCycle ∧
      Heard IncMsg.overtakes (toldInc (.ended .complete) id).st.inc.inbox (.ended .complete) [] := by
  refine ⟨heard_alone _ _, by decide, by decide, heard_alone _ _, rfl, by decide, by decide, heard_alone _ _⟩

def meter (cls : W16) (serial : BitVec 64) : MeterId := { cls := cls, serial := serial, presence := .all4 true }

/-- One reply of each outcome, two that agree, two that differ, a LOCKED and a failed burst. -/
theorem test_identifies :
    profile.Identifies (burstReport .probe .ok [identReply 7 1 false]) .ok (some (meter 7 1)) ∧
      profile.Identifies (burstReport .probe .ok [identReply 7 1 true]) .locked (some (meter 7 1)) ∧
      profile.Identifies (burstReport .probe .ok [identReply 8 1 false]) .classMismatch (some (meter 8 1)) ∧
      profile.Identifies (burstReport .probe .ok [identReply 7 1 false, identReply 7 1 false]) .ok (some (meter 7 1)) ∧
      profile.Identifies (burstReport .probe .ok [identReply 7 1 false, identReply 7 2 false]) .mismatch (some (meter 7 2)) ∧
      profile.Identifies (burstReport .probe .locked []) .locked none ∧
      profile.Identifies (burstReport .probe .timeout [identReply 7 1 false]) .fail (some (meter 7 1)) := by
  refine ⟨.inr (.inr (.inl ⟨_, 7, 1, .all4 true, false, rfl, rfl, rfl, rfl, .inr (.inr ⟨rfl, ?_, rfl⟩)⟩)),
    .inr (.inr (.inl ⟨_, 7, 1, .all4 true, true, rfl, rfl, rfl, rfl, .inl ⟨rfl, rfl⟩⟩)),
    .inr (.inr (.inl ⟨_, 8, 1, .all4 true, false, rfl, rfl, rfl, rfl, .inr (.inl ⟨rfl, .inl (by decide), rfl⟩)⟩)),
    .inr (.inr (.inr ⟨_, _, 7, 1, .all4 true, false, 7, 1, .all4 true, false, rfl, rfl, rfl, rfl,
      .inr ⟨rfl, rfl, .inr (.inr ⟨rfl, ?_, rfl⟩)⟩⟩)),
    .inr (.inr (.inr ⟨_, _, 7, 1, .all4 true, false, 7, 2, .all4 true, false, rfl, rfl, rfl, rfl,
      .inl ⟨by decide, rfl, rfl⟩⟩)),
    .inl ⟨rfl, rfl, rfl⟩, .inr (.inl ⟨by decide, by decide, rfl, rfl⟩)⟩
  all_goals decide

def probeResult (age : Nat) : ProbeResult :=
  { detect := .valid, ident := some .ok, meter := some (meter 7 1), age := age }

/-- The STC has joining sockets and takes `m` before the INC takes the run-opened notice; the probe result is usable. -/
def aheadOfInc (m : StcMsg) : State :=
  on fun st => { (toldStc m .joining).st with inc := { st.inc with
    inbox := [.runOpened header (.all4 false)]
    sockets := .all4 { IncSocket.reset with probe := some (probeResult 0), joinFault := .noMeter } } }

/-- R70: the late end of a join that has not begun; the notice taken after it begins none and opens no shunt, and opens it
where no late end was asked for. -/
theorem test_lateEndBeforeTheNotice :
    let opened := fun s => match exec .incRunOpened s with
      | .next t => some ((t.st.incSocket 0).joinFault, (t.st.incSocket 0).state)
      | _ => none
    let after := fun m c => match exec c (aheadOfInc m) with
      | .next t => ((t.st.ctx 0).run, (t.st.incSocket 0).joinFault, opened t)
      | _ => (.joining, .none, none)
    after (.loadSet 0 false false) .stcLoadSet = (.idle, .late, some (.late, .bypassed)) ∧
      after (.ended .aborted) .stcRunEnded = (.out, .late, some (.late, .bypassed)) ∧
      opened (aheadOfInc .paused) = some (.none, .inserting) := by
  decide +kernel

/-- Where a late end waits: with the one notice the INC has yet to take; with none where the STC has as many to take. -/
theorem test_lateEndsKept_premises :
    let s := aheadOfInc (.loadSet 0 false false)
    s.st.inc.inbox = [] ++ .runOpened header (.all4 false) :: [] ∧
      ([] : List IncMsg).countP IncMsg.isRunOpened = (s.st.stcLeft []).stc.inbox.countP StcMsg.isRunOpened ∧
      (toldStc .paused .joining).st.inc.inbox.countP IncMsg.isRunOpened ≤
        (toldStc .paused .joining).st.stc.inbox.countP StcMsg.isRunOpened ∧
      (toldInc (.runOpened header ⟨true, false, false, false⟩) id).st.inc.inbox =
        .runOpened header ⟨true, false, false, false⟩ :: [] ∧
      (⟨true, false, false, false⟩ : Quad Bool).get 0 = true :=
  ⟨rfl, rfl, by decide, rfl, rfl⟩

/-- The age of the probe at its bound: 1000 ms is usable, 1001 ms is not. -/
theorem test_joinSequence_premises :
    let s := toldInc (.runOpened header (.all4 false)) fun i => { i with probe := some (probeResult 1000) }
    let p := toldInc (.presetOutcome 0 0 true) fun i => { i with state := .inserted, join := .preset 0 }
    let o := toldInc (.presetOutcome 0 0 true) fun i => { i with state := .inserted, join := .preset 1 }
    let d := incIs fun i => { i with state := .probing, cycle := .detect 1, join := .freshCycle }
    let c := incIs fun i => { i with state := .cooling, coolDown := some 1, join := .waitCool }
    let f := fun j => toldInc (.probeEnd 0 (burstReport .probe .ok [identReply 7 1 false])) fun i =>
      { i with state := .probing, cycle := .classify 4, join := j }
    let u := incIs fun i => { i with state := .cooling, join := .waitCool, probe := some (probeResult 1000) }
    (((f .freshCycle).st.incSocket 0).cycle = .classify 4 ∧ ((f .freshCycle).st.incSocket 0).join = .freshCycle ∧
      ((f .waitCycle).st.incSocket 0).join = .waitCycle ∧ (f .waitCycle).st.profile 0 = some profile ∧
      profile.rhi < 1001 ∧ 99 < profile.rlo) ∧
    ((u.st.incSocket 0).state = .cooling ∧ (u.st.incSocket 0).join = .waitCool ∧
      (u.st.incSocket 0).probe = some (probeResult 1000) ∧ (probeResult 1000).meter = some (meter 7 1)) ∧
    d.st.socketAt 0 = some 0 ∧ s.Awake ∧ s.st.inc.inbox = .runOpened header (.all4 false) :: [] ∧ s.st.enabled 0 = true ∧ State.reset.st.enabled 0 = false ∧
      (s.st.incSocket 0).state = .bypassed ∧ (probeResult 1000).age ≤ 1000 ∧ 1000 < (probeResult 1001).age ∧
      ((incIs fun i => { i with state := .inserting }).st.incSocket 0).state = .inserting ∧
      Heard IncMsg.overtakes p.st.inc.inbox (.presetOutcome 0 0 true) [] ∧ (p.st.incSocket 0).state = .inserted ∧
      (p.st.incSocket 0).join = .preset 0 ∧
      (Heard IncMsg.overtakes o.st.inc.inbox (.presetOutcome 0 0 true) [] ∧ (o.st.incSocket 0).join ≠ .preset 0) ∧ (d.st.incSocket 0).cycle = .detect 1 ∧ (d.st.incSocket 0).join = .freshCycle ∧
      d.st.profile 0 = some profile ∧ (c.st.incSocket 0).state = .cooling ∧ (c.st.incSocket 0).join = .waitCool ∧
      Station.usableProbe (c.st.incSocket 0).probe = false ∧ (p.st.incSocket 0).join ≠ .waitCool ∧
      ((toldInc (.runOpened header (.all4 false)) fun i => { i with
        probe := some { probeResult 1000 with meter := none } }).st.incSocket 0).probe =
          some { probeResult 1000 with meter := none } := by
  refine ⟨by decide, by decide, by decide, by decide, rfl, by decide, by decide, by decide, by decide, by decide, rfl,
    heard_alone _ _, by decide, by decide, ⟨heard_alone _ _, by decide⟩, by decide, by decide, by decide, by decide, by decide,
    by decide, by decide, rfl⟩

/-- The outcome of an ended join's preset is only taken, where the next join waits for its own (R123, R146). -/
theorem test_presetOutcomeOfAnEndedJoin :
    let waits := fun n => (incIs fun i => { i with state := .inserted, join := .preset n, joinClass := 7 }).st
    let heard := fun n => match exec (.presetOutcome 0) (on fun _ => (waits n).tellInc (.presetOutcome 0 0 true)) with
      | .next t => some ((t.st.incSocket 0).join, t.st.inc.inbox.length, t.st.stc.inbox.length)
      | _ => none
    heard 1 = some (.preset 1, 0, 0) ∧ heard 0 = some (.none, 0, 1) := by
  decide +kernel

theorem test_supervisionAndShed_premises :
    let i := fun i : IncSocket => { i with state := .inserted, overburden := { count := 60, decay := 0, above := true } }
    let s := incIs i
    let h := on fun st => { runs .measuring (toldInc (.shed 3) i).st with cfl := st.cfl }
    s.Awake ∧ (s.st.incSocket 0).state = .inserted ∧
      (Station.supTimer (s.st.incSocket 0) .overburden).count = s.st.supLimit .overburden ∧
      ((toldStc .paused .joined).st.ctx 0).run = .joined ∧ ((toldStc .paused .joining).st.ctx 0).run = .joining ∧
      s.st.stc.joinPlaced = false ∧ (s.st.ctx 0).run.stepping = false ∧
      Heard IncMsg.overtakes h.st.inc.inbox (.shed 3) [] ∧
      (h.st.enabled 1 = true ∧ 3 ≤ h.st.shedRank 1 ∧ (h.st.incSocket 1).state = .inserted ∧
        (h.st.ctx 1).run.stepping = true) ∧
      ¬ 3 ≤ h.st.shedRank 0 ∧ (([0, 1, 2, 3] : List Socket).filter fun x => decide (3 ≤ h.st.shedRank x)) = [1, 2, 3] ∧
      (let v := fun a d n : Nat => incIs fun i => { i with
         state := .inserted, overburden := { count := n, decay := d, above := a == 1 }, joinFault := .noMeter }
       ((v 0 15 59).st.incSocket 0).overburden.above = false ∧ ((v 0 15 59).st.incSocket 0).overburden.decay = 15 ∧
         ((v 0 15 59).st.incSocket 0).overburden.count ≠ (v 0 15 59).st.supLimit .overburden ∧
         ((v 0 15 60).st.incSocket 0).overburden.count = (v 0 15 60).st.supLimit .overburden ∧
         ((v 0 14 59).st.incSocket 0).overburden.decay ≠ 15 ∧ (v 0 15 59).st.socketAt 0 = some 0) ∧
      Heard IncMsg.overtakes (toldInc (.verifyFail 0) id).st.inc.inbox (.verifyFail 0) [] := by
  refine ⟨by decide, rfl, by decide, rfl, rfl, rfl, rfl, heard_alone _ _, by decide, by decide, by decide, by decide,
    heard_alone _ _⟩

/-! ### Corrections, ports and seals: hypotheses met -/

/-- A preset with an order, one with none and one the channels refuse; a correction at the channel's bound and one past it. -/
theorem test_requests_premises :
    let s := toldCru (.presetRequest 0 7) .none { channelRec with mode := .fixed, preset := 100 }
    let t := toldCru (.correction 0 1 1000) .none channelRec
    let v := toldCru (.verifyRequest 0) .none { channelRec with mark := true }
    s.Awake ∧ Heard CruMsg.overtakes s.st.cru.inbox (.presetRequest 0 7) [] ∧
      (s.st.cruSocket 0).table = some (.all4 { channelRec with mode := .fixed, preset := 100 }) ∧
      (s.st.incSocket 0).joinPresence.get 0 = false ∧ { channelRec with preset := 101 }.max < (101 : Int) ∧
      { channelRec with mode := .off }.mode = .off ∧
      Heard CruMsg.overtakes t.st.cru.inbox (.correction 0 1 1000) [] ∧ channelRec.current = some 0 ∧
      { channelRec with current := none }.current = none ∧ roundHalfAway (-1000) 10 = -100 ∧
      channelRec.min ≤ 0 + roundHalfAway (-1000) 10 ∧ 0 + roundHalfAway (-1006) 10 < channelRec.min ∧
      roundHalfAway (-4) 10 = 0 ∧ Heard CruMsg.overtakes v.st.cru.inbox (.verifyRequest 0) [] ∧
      channelRec.mark = false ∧ ([0, 1, 2, 3].filter fun c : Channel => ((Quad.all4 channelRec).set c channelRec |>.get c).mark) = [] := by
  refine ⟨by decide, heard_alone _ _, rfl, rfl, by decide, rfl, heard_alone _ _, rfl, rfl, by decide, by decide, by decide,
    by decide, heard_alone _ _, rfl, by decide⟩

def written : ExchangeRecord := { order := .writeCh 1 5, outcome := .ok, reply := some .writeCh }

theorem test_burstEnds_premises :
    let r := burstReport .adjust .ok [written, { order := .readCh 1, outcome := .ok, reply := some (.readCh 5) }]
    let s := toldCru (.burstEnd 0 r) (.adjust 4 1 5) channelRec
    s.Awake ∧ Heard CruMsg.overtakes s.st.cru.inbox (.burstEnd 0 r) [] ∧
      (s.st.cruSocket 0).request = .adjust r.id 1 5 ∧ (s.st.cruSocket 0).table = some (.all4 channelRec) ∧
      r.records = written :: [{ order := .readCh 1, outcome := .ok, reply := some (.readCh 5) }] ∧ written.outcome = .ok ∧
      ((toldCru (.runOpened header) (.preset 4 7) channelRec).st.cruSocket 0).request = .preset 4 7 ∧
      ((toldCru (.runOpened header) (.verify 4) channelRec).st.cruSocket 0).request = .verify 4 ∧
      (toldCru (.runOpened header) .none channelRec).st.cru.inbox = .runOpened header :: [] ∧ s.st.bmr.phase ≠ .sealing ∧
      (burstReport .preset .refused [{ written with outcome := .refused, reply := none }]).records =
        [{ order := .writeCh 1 5, outcome := .refused, reply := none }] ∧
      (let a : ExchangeRecord := { order := .readCh 1, outcome := .ok, reply := some (.readCh 5) }
       (burstReport .verify .ok [a]).records = [] ++ a :: [] ∧ (∀ b ∈ [a], b.order ≠ .readCh 0)) :=
  ⟨by decide, heard_alone _ _, rfl, rfl, rfl, rfl, rfl, rfl, rfl, by decide, rfl, rfl, by decide⟩

theorem test_portsTakeBursts_premises :
    let asked := fun p => on fun st =>
      { st with mpc := { ports := .all4 p, nextBurst := 9, inbox := [.request 0 (burst 1), .withdraw 0 2] } }
    let busy : Port := { running := some (running .sending), waiting := some (burst 2), rest := some 1 }
    let s := asked busy
    s.Awake ∧ Heard MpcMsg.overtakes s.st.mpc.inbox (.request 0 (burst 1)) [.withdraw 0 2] ∧
      ((asked .reset).st.port 0).running = none ∧ (s.st.port 0).running ≠ none ∧ (s.st.port 0).waiting ≠ none ∧
      ((asked { busy with waiting := none }).st.port 0).waiting = none ∧
      Heard MpcMsg.overtakes [.request 1 (burst 1), .withdraw 0 2] (.withdraw 0 2) [.request 1 (burst 1)] ∧
      (s.st.port 0).waiting = some (burst 2) ∧ (burst 2).id = 2 ∧ (burst 2).id ≠ 3 ∧
      (s.st.port 0).running = some (running .sending) ∧ (s.st.port 0).rest ≠ none ∧
      (s.st.socketAt 0 = some 0 ∧ (running .sending).stage = .sending ∧ State.reset.st.socketAt 0 = some 0 ∧
        (State.reset.st.port 0).running = none) := by
  refine ⟨by decide, ⟨[], [.withdraw 0 2], rfl, rfl, by simp⟩, rfl, by decide, by decide, rfl, heard_second _ _ _ (by decide),
    rfl, rfl, by decide, rfl, by decide, by decide⟩

/-- A withdrawal overtakes another burst's request of its socket, and waits behind its own (R158). -/
theorem test_withdrawalOvertakes :
    let s := fun n => on fun st => { st with mpc := {
      ports := .all4 { running := some (running .sending), waiting := some { burst 2 with kind := .preset }, rest := none }
      nextBurst := 9, inbox := [.request 0 (burst n), .withdraw 0 2] } }
    Heard MpcMsg.overtakes (s 1).st.mpc.inbox (.withdraw 0 2) [.request 0 (burst 1)] ∧
      (match exec (.burstWithdrawal 0) (s 1) with
        | .next t => (t.st.port 0).waiting == none && t.st.mpc.inbox == [.request 0 (burst 1)]
        | _ => false) = true ∧
      (match exec (.burstWithdrawal 0) (s 2) with
        | .next t => t == s 2
        | _ => false) = true :=
  ⟨heard_second _ _ _ (by decide), by decide +kernel, by decide +kernel⟩

/-- A reply in one piece, one cut short, a byte in error; the burst goes on after OK and ends after TIMEOUT. -/
theorem test_exchanges_premises :
    let s := portIs { running := some (running (.awaiting [] 250)), waiting := none, rest := none }
    s.Awake ∧ s.st.socketAt 0 = some 0 ∧ (s.st.port 0).running = some (running (.awaiting [] 250)) ∧
      (∀ k, { running (.awaiting [] 250) with kind := k, rest := [] }.rest = []) ∧ (running (.awaiting [] 250)).stage = .awaiting [] 250 ∧
      (receive .ident [] [none]).1 = some (.badReply, none) ∧ (receive .ident [] []).1 = none ∧
      (let o := (running .sending).order
       (receive o [] [some 0x3C, some o.code, some 0, some 1, some 1, some (crc8 [o.code, 0, 1, 1])]).1 =
         some (.ok, some .writeCh)) ∧
      (running (.awaiting [] 250)).rest = .readCh 1 :: [] ∧ (Result.timeout ≠ .ok) ∧ ([0x5A] : List Byte) ≠ [] := by
  refine ⟨by decide, by decide, rfl, fun _ => rfl, by decide +kernel⟩

/-- The first check of R151 that holds decides: a wrong start, a wrong length before a wrong check code, the check code
before a wrong order code, that before an unknown status; a status is the last. -/
theorem test_receiveChecks :
    let o := Order.readCh 1
    let reply := fun (c : List Byte) (k : Byte) => (receive o [] (some 0x3C :: (c.map some ++ [some (crc8 c + k)]))).1
    (receive o [] [some 0x5A]).1 = some (.badReply, none) ∧
      receive o [] [some 0x3C, some 2, some 0, some 2] = (some (.badReply, none), [0x3C, 2, 0, 2]) ∧
      (receive o [] [some 0x3C, some 2, some 9, some 2]).1 = none ∧ reply [2, 0, 3, 1, 0, 5] 1 = some (.badReply, none) ∧
      reply [3, 0, 3, 1, 0, 5] 0 = some (.badReply, none) ∧ reply [2, 0, 3, 2, 0, 5] 0 = some (.badReply, none) ∧
      reply [2, 9, 1, 1] 0 = some (.badReply, none) ∧ reply [2, 1, 1, 1] 0 = some (.refused, none) ∧
      reply [2, 0, 3, 1, 0, 5] 0 = some (.ok, some (.readCh 5)) := by
  decide +kernel

/-- REPLY_RECEIVED and REPLY_TIMER_EXPIRY complete: the exchange of the last order ends the burst, whose requester, and
for a write burst the GCU, is told; a SEAL burst tells the GCU nothing. -/
theorem test_exchangeEnds :
    let s := fun k => portIs { running := some { running (.awaiting [] 250) with kind := k, rest := [] }, waiting := none, rest := none }
    let told := fun c k => match exec c (s k) with
      | .next t => some (t.st.cru.inbox.length, t.st.slu.inbox.length, t.st.gcu.inbox)
      | _ => none
    told (.replyReceived 0 [none]) .adjust = some (1, 0, [.writeBurstEnd 0 500]) ∧
      told (.replyTimerExpiry 0) .seal = some (0, 1, []) := by
  decide +kernel

theorem test_sealing_premises :
    let x : SluSocket := .reset
    let h := toldSlu (.handOver 0) .done .sealing x
    let v := toldSlu (.verification 0 true .sealing) .verifying .sealing x
    let c := toldSlu (.ownClaim 0 (.assigned 5000)) .claiming .sealing x
    h.Awake ∧ Heard SluMsg.overtakes h.st.slu.inbox (.handOver 0) [] ∧ (h.st.ctx 0).run = .done ∧ h.st.bmr.phase ≠ .ended ∧
      h.st.anyMark 0 = false ∧ (toldCru (.runOpened header) .none { channelRec with mark := true }).st.anyMark 0 = true ∧
      (toldSlu (.handOver 0) .done .ended x).st.bmr.phase = .ended ∧
      Heard SluMsg.overtakes v.st.slu.inbox (.verification 0 true .sealing) [] ∧ (v.st.ctx 0).run = .verifying ∧
      Heard SluMsg.overtakes c.st.slu.inbox (.ownClaim 0 (.assigned 5000)) [] ∧ (c.st.ctx 0).run = .claiming ∧
      Heard SluMsg.overtakes (toldSlu (.assignment 0 5000) .sealWait .sealing x).st.slu.inbox (.assignment 0 5000) [] ∧
      ((toldSlu (.assignment 0 5000) .sealWait .sealing x).st.ctx 0).run = .sealWait := by
  refine ⟨by decide, heard_alone _ _, rfl, by decide, by decide, by decide, rfl, heard_alone _ _, rfl, heard_alone _ _, rfl,
    heard_alone _ _, rfl⟩

/-- A verification reported in SEALING and taken in ENDED acts by the row of SEALING, and one reported in ENDED by its own
(R165). -/
theorem test_verification_phaseAtReport :
    let run := fun ok p => match exec (.verificationOutcome 0) (toldSlu (.verification 0 ok p) .verifying .ended .reset) with
      | .next t => some ((t.st.ctx 0).run, (t.st.ctx 0).outCause == some .verifyFail, t.st.lkc.outbound.length)
      | _ => none
    run true .sealing = some (.claiming, false, 1) ∧ run false .sealing = some (.out, true, 0) ∧
      (run true .ended).map (fun x => (x.1, x.2.2)) = some (.out, 0) := by
  decide +kernel

/-- Four sockets have asked for their SEAL bursts, numbered 0 to 3. -/
def sealing4 : Station :=
  { station with
    mpc := { Mpc.reset with nextBurst := 4 }
    slu := { Slu.reset with sockets := .tabulate fun n => { SluSocket.reset with request := .seal n.val } } }

theorem test_sealBurstsApart : sealing4.SealBurstsApart := by
  have apart : ∀ a b : Socket, b ≠ a → (sealing4.sluSocket b).request ≠ (sealing4.sluSocket a).request := by decide
  have below : ∀ a : Socket, (sealing4.sluSocket a).request = .seal a.val := by decide
  intro x b h
  refine ⟨?_, fun y hy hb => apart x y hy (hb.trans h.symm)⟩
  rw [below] at h
  injection h with h
  subst h
  exact x.isLt

theorem test_sealBurstEnds_premises :
    let x : SluSocket := { held := some 5000, record := some { fields := fields, status := .pending }, request := .seal 4 }
    let r := burstReport .seal .ok [{ order := .writeSeal fields, outcome := .ok, reply := some .writeSeal },
      { order := .lock, outcome := .ok, reply := some (.lock true) },
      { order := .readSeal, outcome := .ok, reply := some (.readSeal (some fields.bytes)) }]
    let s := toldSlu (.burstEnd 0 r) .sealing .sealing x
    let e := toldSlu (.ended .aborted) .sealing .ended x
    s.Awake ∧ Heard SluMsg.overtakes s.st.slu.inbox (.burstEnd 0 r) [] ∧ (s.st.sluSocket 0).request = .seal r.id ∧
      (s.st.sluSocket 0).record = some { fields := fields, status := .pending } ∧ r.result = .ok ∧
      (none : Option (List Byte)) ≠ some fields.bytes ∧ (burstReport .seal .locked []).result = .locked ∧
      Heard SluMsg.overtakes e.st.slu.inbox (.ended .aborted) [] ∧ (e.st.ctx 0).run = .sealing ∧ e.st.mpc.inbox = [] ∧
      ((toldSlu (.ended .fault) .sealWait .ended x).st.ctx 0).run = .sealWait ∧
      ((portIs { running := none, waiting := some (burst 4), rest := none }).st.port 0).waiting = some (burst 4) ∧
      (toldSlu (.runOpened header) .idle .joining x).st.slu.inbox = .runOpened header :: [] :=
  ⟨by decide, heard_alone _ _, rfl, rfl, rfl, by decide, rfl, heard_alone _ _, rfl, rfl,
    rfl, rfl, rfl⟩

/-! ### Reports and lamps: hypotheses met -/

theorem test_queriesAndLamps_premises :
    let s := on fun st => { st with rpu := { st.rpu with queries := 1 } }
    s.Awake ∧ s.st.rpu.queries = 0 + 1 ∧ (∀ e ∈ s.st.lkc.outbound, Station.isState e.body = false) ∧
      s.st.rpu.queryPending = false ∧ Station.isState (.state s.st.stateReport) = true ∧ State.reset.st.enabled 0 = false ∧
      s.st.enabled 0 = true ∧ (s.st.ctx 0).run ≠ .sealed ∧ s.st.socketAt 0 = some 0 ∧
      (heads .pause (mirror .stepping [])).st.bmr.step = some 0 ∧ s.st.bmr.step = none ∧
      (link fun l => { l with outbound := [entry (.state s.st.stateReport) .onWire] }).st.lkc.outbound =
        [] ++ entry (.state s.st.stateReport) .onWire :: [] ∧
      { RunCtx.reset with run := .out, outCause := some .failed }.outCause = some .failed ∧
      ((incIs fun i => { i with probe := some (probeResult 0) }).st.incSocket 0).probe = some (probeResult 0) := by
  decide +kernel

/-- The lamps of R194: a DONE socket is steady, a sealed one flashes slowly, an aborted one is dark. -/
theorem test_lamps :
    (runs .done station).lamp 0 = .steady ∧ (runs .sealed station).lamp 0 = .slowFlash ∧
      ({ runs .out station with stc := { station.stc with
        ctx := .all4 { RunCtx.reset with run := .out, outCause := some .aborted } } } : Station).lamp 0 = .off := by
  decide

/-! ### The invariants: a state that meets them, and a step from it -/

theorem test_invariants_premises :
    let m := { mirror .sealing [{ seat .claimed with number := some 5000 }, seat .done] with
      pool := [{ first := 5000, count := 3, next := 1 }], highWater := 5002, issued := 1 }
    m.WaitingSound ∧ m.issued = m.countOf .claimed + m.sealedCount + m.spoiledCount ∧
      (m.pool.length ≤ 4 ∧ m.highWater ≤ 4294967295 ∧
        ∀ b ∈ m.pool, 1 ≤ b.first ∧ b.count ≤ 65535 ∧ b.next < b.count ∧ b.first + b.count ≤ m.highWater + 1) ∧
      (∀ e ∈ m.roster, ∀ n ∈ e.number, n ≤ m.highWater ∧ ∀ b ∈ m.pool, n < b.first + b.next) ∧ ¬ m.EndDue := by
  decide +kernel

theorem test_stationLaws_premises :
    Station.frameFill (heads .pause .reset).st.lkc.inbound ≤ 8 ∧ (on id).st.cfl.stage = .running ∧
      (let l := (link fun l => { l with
         outbound := [entry (.bypass 0 0x21 0xFF) .queued, entry .pause .queued, entry (.announce 0 0 0 0) .queued]
         deferredJoin := some (entry (.join 0 0 (.all4 { cls := 0, fault := 0 })) .queued) }).st.lkc
       (l.outbound.Pairwise fun a b => Station.urgentBody b.body = true → Station.urgentBody a.body = true) ∧
         (l.outbound.filter fun e => Station.inAnnouncePlace e.body).length ≤ 1 ∧
         (l.outbound.filter fun e => Station.isState e.body).length ≤ 1) ∧
      (∀ x : Socket, ((on id).st.port x).running = none → ((on id).st.port x).waiting = none) ∧
      (∀ x : Socket, ((on id).st.incSocket x).state ≠ .inserted → ((on id).st.incSocket x).overburden = .zero) ∧
      (on id).st.lkc.objections ≤ 3 ∧ ¬ (on id).st.bmr.EndDue := by
  decide +kernel

/-- A command in front of the queue is run, here a round-start mark on an idle link. -/
theorem test_frontCommandRuns :
    (match step { on id with pending := [.roundStartMark] } with
      | .next t => t.pending == [] && t.st.lkc.medium == .round
      | _ => false) = true := by
  decide

end Sys2Proof.Tests
end

section
/-! PROOFS. Who writes the mirror: no operation of another block does, so the taking of inbound entries and power-on reset are
the only commands that change it. -/

namespace Sys2Proof.Machine

namespace Station

variable (st : Station)

/-! ### The operations the blocks share -/

@[simp] theorem each_bmr {f : Socket → Station → Station} (h : ∀ s st, (f s st).bmr = st.bmr) : (st.each f).bmr = st.bmr :=
  each_keeps (K := fun x => x.bmr = st.bmr) (fun s x hx => (h s x).trans hx) rfl

@[simp] theorem atPosition_bmr {p : Position} {f : Socket → Station → Station} (h : ∀ s st, (f s st).bmr = st.bmr) :
    (st.atPosition p f).bmr = st.bmr := by
  unfold atPosition
  split
  · exact h _ _
  · rfl

@[simp] theorem stcNotice_bmr {β : Type} {pick : StcMsg → Option β} {f : β → Station → Station}
    (h : ∀ b st, (f b st).bmr = st.bmr) : (st.stcNotice pick f).bmr = st.bmr := by
  unfold stcNotice
  split
  · exact h _ _
  · rfl

@[simp] theorem stcReport_bmr {β : Type} {line : Option ReportLine} {pick : StcMsg → Option β} {f : β → Station → Station}
    (h : ∀ b st, (f b st).bmr = st.bmr) : (st.stcReport line pick f).bmr = st.bmr := by
  unfold stcReport
  split
  · exact h _ _
  · rfl

@[simp] theorem incNotice_bmr {β : Type} {pick : IncMsg → Option β} {f : β → Station → Station}
    (h : ∀ b st, (f b st).bmr = st.bmr) : (st.incNotice pick f).bmr = st.bmr := by
  unfold incNotice
  split
  · exact h _ _
  · rfl

@[simp] theorem incReport_bmr {β : Type} {pick : IncMsg → Option β} {f : β → Station → Station}
    (h : ∀ b st, (f b st).bmr = st.bmr) : (st.incReport pick f).bmr = st.bmr := by
  unfold incReport
  split
  · exact h _ _
  · rfl

@[simp] theorem cruReport_bmr {β : Type} {pick : CruMsg → Option β} {f : β → Station → Station}
    (h : ∀ b st, (f b st).bmr = st.bmr) : (st.cruReport pick f).bmr = st.bmr := by
  unfold cruReport
  split
  · exact h _ _
  · rfl

@[simp] theorem sluNotice_bmr {β : Type} {pick : SluMsg → Option β} {f : β → Station → Station}
    (h : ∀ b st, (f b st).bmr = st.bmr) : (st.sluNotice pick f).bmr = st.bmr := by
  unfold sluNotice
  split
  · exact h _ _
  · rfl

@[simp] theorem sluReport_bmr {β : Type} {pick : SluMsg → Option β} {f : β → Station → Station}
    (h : ∀ b st, (f b st).bmr = st.bmr) : (st.sluReport pick f).bmr = st.bmr := by
  unfold sluReport
  split
  · exact h _ _
  · rfl

@[simp] theorem stcRunOpenedNotice_bmr {f : RunHeader → Station → Station} (h : ∀ b st, (f b st).bmr = st.bmr) :
    (st.stcRunOpenedNotice f).bmr = st.bmr := by
  unfold stcRunOpenedNotice
  split
  · exact h _ _
  · rfl

@[simp] theorem incRunOpenedNotice_bmr {f : Quad Bool → Station → Station} (h : ∀ b st, (f b st).bmr = st.bmr) :
    (st.incRunOpenedNotice f).bmr = st.bmr := by
  unfold incRunOpenedNotice
  split
  · exact h _ _
  · rfl

@[simp] theorem cruRunOpenedNotice_bmr {f : Station → Station} (h : ∀ st, (f st).bmr = st.bmr) :
    (st.cruRunOpenedNotice f).bmr = st.bmr := by
  unfold cruRunOpenedNotice
  split
  · exact h _
  · rfl

@[simp] theorem sluRunOpenedNotice_bmr {f : Station → Station} (h : ∀ st, (f st).bmr = st.bmr) :
    (st.sluRunOpenedNotice f).bmr = st.bmr := by
  unfold sluRunOpenedNotice
  split
  · exact h _
  · rfl

@[simp] theorem takeBurstEnd_bmr {s : Socket} {k : BurstKind} {f : BurstReport → Station → Station}
    (h : ∀ r st, (f r st).bmr = st.bmr) : (st.takeBurstEnd s k f).bmr = st.bmr := by
  unfold takeBurstEnd
  split
  · exact h _ _
  · rfl

@[simp] theorem placeJoin_bmr (r : Byte) (b : Body) : (st.placeJoin r b).bmr = st.bmr := by
  unfold placeJoin
  split
  · rfl
  · split <;> rfl

@[simp] theorem placeDeferredJoin_bmr : st.placeDeferredJoin.bmr = st.bmr := by
  unfold placeDeferredJoin
  split <;> rfl

@[simp] theorem withdrawVerdict_bmr (s : Socket) : (st.withdrawVerdict s).bmr = st.bmr := rfl

@[simp] theorem assertFlt_bmr (c : OwnFault) : (st.assertFlt c).bmr = st.bmr := by
  unfold assertFlt
  split <;> rfl

@[simp] theorem enterMute_bmr (c : OwnFault) : (st.enterMute c).bmr = st.bmr := by simp [enterMute]

@[simp] theorem openWindow_bmr (s : Socket) : (st.openWindow s).bmr = st.bmr := rfl
@[simp] theorem voidWindow_bmr (s : Socket) : (st.voidWindow s).bmr = st.bmr := rfl
@[simp] theorem closeShunt_bmr (s : Socket) : (st.closeShunt s).bmr = st.bmr := rfl
@[simp] theorem endJoinLate_bmr (s : Socket) : (st.endJoinLate s).bmr = st.bmr := rfl
@[simp] theorem placeBypass_bmr (s : Socket) (c : OutCause) : (st.placeBypass s c).bmr = st.bmr := rfl
@[simp] theorem requestBurst_bmr (s : Socket) (k : BurstKind) (o : Order) (os : List Order) :
    (st.requestBurst s k o os).bmr = st.bmr := rfl

/-! ### The Gate Counter Unit -/

@[simp] theorem refPulse_bmr : st.refPulse.bmr = st.bmr := rfl

@[simp] theorem endAccuracy_bmr (s : Socket) (o : Bool) (l : List Sample) : (st.endAccuracy s o l).bmr = st.bmr := rfl

@[simp] theorem endTimed_bmr (s : Socket) (v : Verdict) (n : Nat) : (st.endTimed s v n).bmr = st.bmr := rfl

@[simp] theorem gatePulse_bmr (s : Socket) (p : GateParams) (g : OpenGate) (n : Nat) :
    (st.gatePulse s p g n).bmr = st.bmr := by
  simp [gatePulse, apply_ite bmr]

@[simp] theorem pulseAt_bmr (s : Socket) : (st.pulseAt s).bmr = st.bmr := by
  unfold pulseAt
  split <;> simp [apply_ite bmr]

@[simp] theorem meterPulse_bmr (p : Position) : (meterPulse p st).bmr = st.bmr := by
  unfold meterPulse
  split <;> simp [apply_ite bmr]

@[simp] theorem gateTimeout_bmr (s : Socket) : (gateTimeout s st).bmr = st.bmr := by
  unfold gateTimeout
  split <;> simp [apply_ite bmr]

@[simp] theorem creepTimer_bmr (s : Socket) : (creepTimer s st).bmr = st.bmr := by
  unfold creepTimer
  split <;> simp

@[simp] theorem startTimer_bmr (s : Socket) : (startTimer s st).bmr = st.bmr := by
  unfold startTimer
  split <;> simp

@[simp] theorem writeBurstEnd_bmr (s : Socket) : (writeBurstEnd s st).bmr = st.bmr := by
  unfold writeBurstEnd
  split <;> simp

@[simp] theorem pulseMaskEnd_bmr (s : Socket) : (pulseMaskEnd s st).bmr = st.bmr := by
  simp [pulseMaskEnd, apply_ite bmr]

@[simp] theorem gcuRunOpened_bmr : st.gcuRunOpened.bmr = st.bmr := by
  unfold gcuRunOpened
  split <;> simp

/-! ### The Correction Unit -/

@[simp] theorem setRequest_bmr (s : Socket) (r : CruRequest) : (st.setRequest s r).bmr = st.bmr := rfl

@[simp] theorem modTable_bmr (s : Socket) (f : Quad ChannelRec → Quad ChannelRec) : (st.modTable s f).bmr = st.bmr := rfl

@[simp] theorem buildPreset_bmr (s : Socket) (n : Nat) (t : Quad ChannelRec) : (st.buildPreset s n t).bmr = st.bmr := by
  unfold buildPreset
  split
  · simp
  · split <;> simp

@[simp] theorem presetRequest_bmr (s : Socket) : (presetRequest s st).bmr = st.bmr :=
  cruReport_bmr st fun n x => by split <;> simp

@[simp] theorem presetBurstEnd_bmr (s : Socket) : (presetBurstEnd s st).bmr = st.bmr :=
  takeBurstEnd_bmr st fun r x => by split <;> simp [apply_ite bmr]

@[simp] theorem correct_bmr (s : Socket) (c : Channel) (mean : Int) (r : ChannelRec) :
    (st.correct s c mean r).bmr = st.bmr := by
  unfold correct
  split <;> simp [apply_ite bmr]

@[simp] theorem correctionRequest_bmr (s : Socket) : (correctionRequest s st).bmr = st.bmr :=
  cruReport_bmr st fun ⟨c, mean⟩ x => by dsimp only; split <;> simp

@[simp] theorem takeAdjust_bmr (s : Socket) (c : Channel) (v : Int) (rs : List ExchangeRecord) :
    (st.takeAdjust s c v rs).bmr = st.bmr := by
  unfold takeAdjust
  split <;> simp

@[simp] theorem adjustBurstEnd_bmr (s : Socket) : (adjustBurstEnd s st).bmr = st.bmr :=
  takeBurstEnd_bmr st fun r x => by split <;> simp [apply_ite bmr]

@[simp] theorem verificationRequest_bmr (s : Socket) : (verificationRequest s st).bmr = st.bmr :=
  cruReport_bmr st fun b x => by split <;> simp

@[simp] theorem reportVerification_bmr (s : Socket) (ok : Bool) : (st.reportVerification s ok).bmr = st.bmr := by
  simp [reportVerification, apply_ite bmr]

@[simp] theorem verifyBurstEnd_bmr (s : Socket) : (verifyBurstEnd s st).bmr = st.bmr :=
  takeBurstEnd_bmr st fun r x => by split <;> simp [apply_ite bmr]

@[simp] theorem closeRequest_bmr (s : Socket) : (closeRequest s st).bmr = st.bmr := by
  unfold closeRequest
  split <;> rfl

@[simp] theorem cruRunOpened_bmr : st.cruRunOpened.bmr = st.bmr := by simp [cruRunOpened]

/-! ### The Insertion Controller -/

@[simp] theorem startCycle_bmr (s : Socket) : (st.startCycle s).bmr = st.bmr := rfl
@[simp] theorem failJoin_bmr (s : Socket) (c : JoinFault) : (st.failJoin s c).bmr = st.bmr := rfl
@[simp] theorem insert_bmr (s : Socket) (m : MeterId) : (st.insert s m).bmr = st.bmr := rfl

@[simp] theorem stepTwo_bmr (s : Socket) : (st.stepTwo s).bmr = st.bmr := by
  unfold stepTwo
  split
  · simp
  · split <;> simp

@[simp] theorem stepOneBypassed_bmr (s : Socket) : (st.stepOneBypassed s).bmr = st.bmr := by
  simp [stepOneBypassed, apply_ite bmr]

@[simp] theorem endCycle_bmr (s : Socket) (r : ProbeResult) : (st.endCycle s r).bmr = st.bmr := by
  unfold endCycle
  split <;> simp

@[simp] theorem incStartUpEnd_bmr : st.incStartUpEnd.bmr = st.bmr := by simp [incStartUpEnd, apply_ite bmr]

@[simp] theorem idleProbeStart_bmr (s : Socket) : (idleProbeStart s st).bmr = st.bmr := by
  simp [idleProbeStart, apply_ite bmr]

@[simp] theorem requestProbe_bmr (s : Socket) (c : Bool) : (st.requestProbe s c).bmr = st.bmr := rfl

@[simp] theorem detectEnd_bmr (s : Socket) (r : Nat) : (detectEnd s r st).bmr = st.bmr := by
  unfold detectEnd
  split
  · split <;> simp
  · rfl

@[simp] theorem probeBurstEnd_bmr (s : Socket) : (probeBurstEnd s st).bmr = st.bmr :=
  incReport_bmr st fun r x => by split <;> simp [apply_ite bmr]

@[simp] theorem openJoin_bmr (late : Bool) (s : Socket) : (openJoin late s st).bmr = st.bmr := by
  unfold openJoin
  split
  · split
    · simp
    · split <;> simp
  · simp

@[simp] theorem incRunOpened_bmr : st.incRunOpened.bmr = st.bmr := by simp [incRunOpened]

@[simp] theorem senseAboveVopen_bmr (s : Socket) : (senseAboveVopen s st).bmr = st.bmr := by
  simp [senseAboveVopen, apply_ite bmr]

@[simp] theorem askPreset_bmr (s : Socket) : (st.askPreset s).bmr = st.bmr := rfl

@[simp] theorem insertionWindowEnd_bmr (s : Socket) : (insertionWindowEnd s st).bmr = st.bmr := by
  simp [insertionWindowEnd, apply_ite bmr]

@[simp] theorem takePresetOutcome_bmr (s : Socket) (ok : Bool) : (st.takePresetOutcome s ok).bmr = st.bmr := by
  simp [takePresetOutcome, apply_ite bmr]

@[simp] theorem presetOutcome_bmr (s : Socket) : (presetOutcome s st).bmr = st.bmr := by
  simp [presetOutcome, apply_ite bmr]

@[simp] theorem placeSupervisionBypass_bmr (s : Socket) (c : OutCause) :
    (st.placeSupervisionBypass s c).bmr = st.bmr := by
  simp [placeSupervisionBypass, apply_ite bmr]

@[simp] theorem supervisionLimit_bmr (s : Socket) (t : SupTimer) : (supervisionLimit s t st).bmr = st.bmr := by
  simp [supervisionLimit, apply_ite bmr]

@[simp] theorem supervisionDecay_bmr (s : Socket) (t : SupTimer) : (supervisionDecay s t st).bmr = st.bmr := by
  simp [supervisionDecay, apply_ite bmr]

@[simp] theorem supervisionRise_bmr (s : Socket) (l : SupTimer) : (supervisionRise s l st).bmr = st.bmr := by
  simp [supervisionRise, apply_ite bmr]

@[simp] theorem coolDownEnd_bmr (s : Socket) : (coolDownEnd s st).bmr = st.bmr := by
  simp [coolDownEnd, apply_ite bmr]

@[simp] theorem shedSocket_bmr (level : Nat) (s : Socket) : (shedSocket level s st).bmr = st.bmr := by
  simp [shedSocket, apply_ite bmr]

@[simp] theorem incShed_bmr : st.incShed.bmr = st.bmr := by simp [incShed]

@[simp] theorem incRunEnded_bmr : st.incRunEnded.bmr = st.bmr := by simp [incRunEnded]

@[simp] theorem verifyFailReport_bmr (s : Socket) : (verifyFailReport s st).bmr = st.bmr :=
  incReport_bmr st fun _ x => placeBypass_bmr x s .verifyFail

/-! ### The Report Unit -/

@[simp] theorem placeState_bmr : st.placeState.bmr = st.bmr := rfl

@[simp] theorem answerQuery_bmr : st.answerQuery.bmr = st.bmr := by
  unfold answerQuery
  split <;> simp [apply_ite bmr]

@[simp] theorem queryNotice_bmr : st.queryNotice.bmr = st.bmr := by
  unfold queryNotice
  split <;> simp

@[simp] theorem dropPendingQuery_bmr : st.dropPendingQuery.bmr = st.bmr := rfl

@[simp] theorem settlePendingQuery_bmr : st.settlePendingQuery.bmr = st.bmr := by
  simp [settlePendingQuery, apply_ite bmr]

@[simp] theorem lampTimer_bmr : st.lampTimer.bmr = st.bmr := rfl

/-! ### The Link Controller -/

@[simp] theorem idleInterval_bmr : st.idleInterval.bmr = st.bmr := by simp [idleInterval, apply_ite bmr]

@[simp] theorem roundStart_bmr : st.roundStart.bmr = st.bmr := by simp [roundStart, apply_ite bmr]

@[simp] theorem roundWon_bmr (w : Node) (o : Bool) : (st.roundWon w o).bmr = st.bmr := rfl

@[simp] theorem holdSlotEnd_bmr (u o : W32) (h : Bool) : (holdSlotEnd u o h st).bmr = st.bmr := by
  unfold holdSlotEnd
  split
  · split <;> simp
  · rfl

@[simp] theorem frameStartLimit_bmr : st.frameStartLimit.bmr = st.bmr := by simp [frameStartLimit, apply_ite bmr]

@[simp] theorem holdWaitEnd_bmr : st.holdWaitEnd.bmr = st.bmr := by simp [holdWaitEnd, apply_ite bmr]

@[simp] theorem endFrame_bmr (f : Option Frame) : (st.endFrame f).bmr = st.bmr := rfl

@[simp] theorem frameEnd_bmr (b : List Byte) : (frameEnd b st).bmr = st.bmr := by simp [frameEnd, apply_ite bmr]

@[simp] theorem earlyEnd_bmr : st.earlyEnd.bmr = st.bmr := by simp [earlyEnd, apply_ite bmr]

@[simp] theorem framingViolation_bmr (v : Violation) : (framingViolation v st).bmr = st.bmr := by
  simp [framingViolation, apply_ite bmr]

@[simp] theorem readbackFailure_bmr : st.readbackFailure.bmr = st.bmr := by simp [readbackFailure, apply_ite bmr]

@[simp] theorem publish_bmr : st.publish.bmr = st.bmr := by simp [publish, apply_ite bmr]

@[simp] theorem countObjection_bmr : st.countObjection.bmr = st.bmr := by simp [countObjection, apply_ite bmr]

@[simp] theorem duplicateCheck_bmr (f : Frame) (own : Bool) : (st.duplicateCheck f own).bmr = st.bmr := by
  simp [duplicateCheck, apply_ite bmr]

@[simp] theorem ownOutcome_bmr (clean : Bool) : (st.ownOutcome clean).bmr = st.bmr := by
  unfold ownOutcome
  split <;> simp [apply_ite bmr]

@[simp] theorem cleanSlot_bmr : st.cleanSlot.bmr = st.bmr := by
  unfold cleanSlot
  split <;> simp

@[simp] theorem leaveListen_bmr (clean : Bool) : (st.leaveListen clean).bmr = st.bmr := rfl

@[simp] theorem objectionSlotEnd_bmr (marked : Bool) : (objectionSlotEnd marked st).bmr = st.bmr := by
  simp [objectionSlotEnd, apply_ite bmr]

@[simp] theorem voidFrame_bmr : st.voidFrame.bmr = st.bmr := by simp [voidFrame, apply_ite bmr]

@[simp] theorem mark_bmr (m : Entry) : (st.mark m).bmr = st.bmr := rfl

@[simp] theorem resetLink_bmr : st.resetLink.bmr = st.bmr := by simp [resetLink]

@[simp] theorem lrstRising_bmr : st.lrstRising.bmr = st.bmr := by simp [lrstRising, apply_ite bmr]

@[simp] theorem lrstReleased_bmr : st.lrstReleased.bmr = st.bmr := by simp [lrstReleased, apply_ite bmr]

@[simp] theorem ownLrstEnd_bmr : st.ownLrstEnd.bmr = st.bmr := rfl

@[simp] theorem faultFrame_bmr : st.faultFrame.bmr = st.bmr := by simp [faultFrame, apply_ite bmr]

@[simp] theorem fltRising_bmr : st.fltRising.bmr = st.bmr := by simp [fltRising, apply_ite bmr]

@[simp] theorem fltReleased_bmr : st.fltReleased.bmr = st.bmr := by simp [fltReleased, apply_ite bmr]

@[simp] theorem ownFltEnd_bmr : st.ownFltEnd.bmr = st.bmr := by simp [ownFltEnd, apply_ite bmr]

@[simp] theorem mirrorCheckNotice_bmr : st.mirrorCheckNotice.bmr = st.bmr := by
  unfold mirrorCheckNotice
  split <;> simp

/-! ### The Meter Port Controller -/

@[simp] theorem reportBurst_bmr (s : Socket) (r : BurstReport) : (st.reportBurst s r).bmr = st.bmr := by
  unfold reportBurst
  split <;> rfl

@[simp] theorem reportWrite_bmr (s : Socket) (k : BurstKind) : (st.reportWrite s k).bmr = st.bmr := by
  simp [reportWrite, apply_ite bmr]

@[simp] theorem endExchange_bmr (s : Socket) (x : Running) (o : Result) (r : Option Reply) :
    (st.endExchange s x o r).bmr = st.bmr := by
  unfold endExchange
  split <;> simp

@[simp] theorem burstRequest_bmr (s : Socket) (k : BurstKind) : (burstRequest s k st).bmr = st.bmr := by
  unfold burstRequest
  split <;> simp [apply_ite bmr]

@[simp] theorem burstWithdrawal_bmr (s : Socket) : (burstWithdrawal s st).bmr = st.bmr := by
  unfold burstWithdrawal
  split
  · split <;> simp
  · rfl

@[simp] theorem orderSent_bmr (s : Socket) : (orderSent s st).bmr = st.bmr := by
  unfold orderSent
  split <;> simp [apply_ite bmr]

@[simp] theorem replyReceived_bmr (s : Socket) (b : List RxByte) : (replyReceived s b st).bmr = st.bmr := by
  unfold replyReceived
  split
  · rfl
  · split
    · split <;> simp
    · rfl

@[simp] theorem replyTimerExpiry_bmr (s : Socket) : (replyTimerExpiry s st).bmr = st.bmr := by
  unfold replyTimerExpiry
  split
  · rfl
  · split <;> simp

@[simp] theorem lineRestEnd_bmr (s : Socket) : (lineRestEnd s st).bmr = st.bmr := by
  simp [lineRestEnd, apply_ite bmr]

@[simp] theorem strayByte_bmr (s : Socket) (b : RxByte) : (strayByte s b st).bmr = st.bmr := rfl

/-! ### Start-up -/

@[simp] theorem enterRunning_bmr (l : Loaded) : (st.enterRunning l).bmr = st.bmr := rfl

@[simp] theorem powerOnResetEnd_bmr (straps : BitVec 5) (r l f : Bool) : (powerOnResetEnd straps r l f st).bmr = st.bmr := by
  simp [powerOnResetEnd, apply_ite bmr]

@[simp] theorem attemptEnd_bmr (a : Option (List Byte)) : (attemptEnd a st).bmr = st.bmr := by
  unfold attemptEnd
  split
  · dsimp only
    split <;> simp [apply_ite bmr]
  · rfl

@[simp] theorem clockHeldTimeout_bmr : st.clockHeldTimeout.bmr = st.bmr := attemptEnd_bmr st none

@[simp] theorem readRetry_bmr : st.readRetry.bmr = st.bmr := by simp [readRetry, apply_ite bmr]

/-! ### The Seal Unit -/

@[simp] theorem setRun_bmr (s : Socket) (r : RunState) : (st.setRun s r).bmr = st.bmr := rfl
@[simp] theorem outByRoster_bmr (s : Socket) : (st.outByRoster s).bmr = st.bmr := rfl
@[simp] theorem claim_bmr (s : Socket) : (st.claim s).bmr = st.bmr := rfl

@[simp] theorem takeHandOver_bmr (s : Socket) : (st.takeHandOver s).bmr = st.bmr := by
  simp [takeHandOver, apply_ite bmr]

@[simp] theorem handOver_bmr : st.handOver.bmr = st.bmr := by simp [handOver]

@[simp] theorem takeVerification_bmr (s : Socket) (ok : Bool) (p : Phase) : (st.takeVerification s ok p).bmr = st.bmr := by
  simp [takeVerification, apply_ite bmr]

@[simp] theorem verificationOutcome_bmr (s : Socket) : (verificationOutcome s st).bmr = st.bmr := by
  simp [verificationOutcome, apply_ite bmr]

@[simp] theorem takeNumber_bmr (s : Socket) (n : Nat) : (st.takeNumber s n).bmr = st.bmr := rfl

@[simp] theorem takeOwnClaim_bmr (s : Socket) (r : ClaimResult) : (st.takeOwnClaim s r).bmr = st.bmr := by
  unfold takeOwnClaim
  split <;> simp

@[simp] theorem ownClaimNotice_bmr : st.ownClaimNotice.bmr = st.bmr := by simp [ownClaimNotice, apply_ite bmr]

@[simp] theorem assignmentNotice_bmr : st.assignmentNotice.bmr = st.bmr := by simp [assignmentNotice, apply_ite bmr]

@[simp] theorem placeDone_bmr (s : Socket) (f : SealFields) : (st.placeDone s f).bmr = st.bmr := rfl

@[simp] theorem placeSpoil_bmr (s : Socket) (f : SealFields) (c : SpoilCause) : (st.placeSpoil s f c).bmr = st.bmr := rfl

@[simp] theorem takeSealEnd_bmr (s : Socket) (r : BurstReport) : (st.takeSealEnd s r).bmr = st.bmr := by
  unfold takeSealEnd
  split
  · split
    · split <;> simp
    · rfl
  · rfl

@[simp] theorem sealBurstEnd_bmr (s : Socket) : (sealBurstEnd s st).bmr = st.bmr := by simp [sealBurstEnd]

@[simp] theorem dropBurst_bmr (s : Socket) (b : Nat) : (st.dropBurst s b).bmr = st.bmr := rfl

@[simp] theorem endSealing_bmr (s : Socket) (e : EndCause) : (st.endSealing s e).bmr = st.bmr := by
  unfold endSealing
  split <;> simp [apply_ite bmr]

@[simp] theorem endSealSocket_bmr (e : EndCause) (s : Socket) : (endSealSocket e s st).bmr = st.bmr := by
  unfold endSealSocket
  split <;> simp

@[simp] theorem sluRunEnded_bmr : st.sluRunEnded.bmr = st.bmr := by simp [sluRunEnded]

@[simp] theorem sluRunOpened_bmr : st.sluRunOpened.bmr = st.bmr := by simp [sluRunOpened]

/-! ### The Step Controller -/

@[simp] theorem placeJoinIfComplete_bmr : st.placeJoinIfComplete.bmr = st.bmr := by
  simp [placeJoinIfComplete, apply_ite bmr]

@[simp] theorem stcRunOpened_bmr : st.stcRunOpened.bmr = st.bmr := by simp [stcRunOpened]

@[simp] theorem stcTableRefusal_bmr : st.stcTableRefusal.bmr = st.bmr :=
  stcNotice_bmr st fun _ x => (placeJoin_bmr _ _ _).trans (each_bmr x fun s x => modInc_bmr x s _)

@[simp] theorem takeJoinOutcome_bmr (s : Socket) (o : JoinOutcome) : (st.takeJoinOutcome s o).bmr = st.bmr := by
  unfold takeJoinOutcome
  split
  · split <;> simp
  · rfl

@[simp] theorem joinOutcome_bmr (s : Socket) : (joinOutcome s st).bmr = st.bmr := by simp [joinOutcome]

@[simp] theorem placeDeferred_bmr (s : Socket) : (placeDeferred s st).bmr = st.bmr := by
  unfold placeDeferred
  split <;> simp

@[simp] theorem ownJoinApplied_bmr : st.ownJoinApplied.bmr = st.bmr := by simp [ownJoinApplied, apply_ite bmr]

@[simp] theorem ownJoinIgnored_bmr : st.ownJoinIgnored.bmr = st.bmr :=
  stcNotice_bmr st fun _ x =>
    (each_bmr _ fun s x => modInc_bmr x s _).trans (each_bmr x fun s x => by simp [apply_ite bmr])

@[simp] theorem startWindow_bmr (s : Socket) : (st.startWindow s).bmr = st.bmr := rfl

@[simp] theorem retry_bmr (s : Socket) : (st.retry s).bmr = st.bmr := by simp [retry, apply_ite bmr]

@[simp] theorem finalVerdict_bmr (s : Socket) (v : Verdict) (mean : Int) (spread a j : Nat) :
    (st.finalVerdict s v mean spread a j).bmr = st.bmr := rfl

@[simp] theorem takeAccuracyEnd_bmr (s : Socket) (r : WindowReport) : (st.takeAccuracyEnd s r).bmr = st.bmr := by
  unfold takeAccuracyEnd
  dsimp only
  split <;> simp

@[simp] theorem accuracyWindowEnd_bmr (s : Socket) : (accuracyWindowEnd s st).bmr = st.bmr := by
  simp [accuracyWindowEnd, apply_ite bmr]

@[simp] theorem timedWindowEnd_bmr (s : Socket) : (timedWindowEnd s st).bmr = st.bmr := by
  simp [timedWindowEnd, apply_ite bmr]

@[simp] theorem takeWindowEnd_bmr (s : Socket) (w : WindowEnd) : (st.takeWindowEnd s w).bmr = st.bmr := by
  unfold takeWindowEnd
  split <;> simp

@[simp] theorem takeEnded_bmr (s : Socket) : (takeEnded s st).bmr = st.bmr := by
  unfold takeEnded
  split
  · split <;> simp
  · rfl

@[simp] theorem beforeVoids_bmr (v : Socket → Bool) : (beforeVoids v st).bmr = st.bmr := by
  simp [beforeVoids, apply_ite bmr]

@[simp] theorem dropSocket_bmr (s : Socket) (c : OutCause) : (st.dropSocket s c).bmr = st.bmr := rfl

@[simp] theorem compareSocket_bmr (b : Bool) (s : Socket) : (compareSocket b s st).bmr = st.bmr := by
  simp [compareSocket, apply_ite bmr]

@[simp] theorem compareRoster_bmr (b : Bool) : (st.compareRoster b).bmr = st.bmr := by simp [compareRoster]

@[simp] theorem endLateJoin_bmr (n : Bool) (s : Socket) : (endLateJoin n s st).bmr = st.bmr := by
  simp [endLateJoin, apply_ite bmr]

@[simp] theorem startSocket_bmr (k : Nat) (p : Bool) (s : Socket) : (startSocket k p s st).bmr = st.bmr := by
  simp [startSocket, apply_ite bmr]

@[simp] theorem stcLoadSet_bmr : st.stcLoadSet.bmr = st.bmr := by simp [stcLoadSet, apply_ite bmr]

@[simp] theorem settleExpiry_bmr (s : Socket) : (settleExpiry s st).bmr = st.bmr := by
  simp [settleExpiry, apply_ite bmr]

@[simp] theorem rdyRising_bmr : st.rdyRising.bmr = st.bmr := by simp [rdyRising, apply_ite bmr]

@[simp] theorem disturbSocket_bmr (s : Socket) : (disturbSocket s st).bmr = st.bmr := by
  unfold disturbSocket
  split <;> simp

@[simp] theorem disturb_bmr : st.disturb.bmr = st.bmr := by simp [disturb]

@[simp] theorem rdyFalling_bmr : st.rdyFalling.bmr = st.bmr := by simp [rdyFalling, apply_ite bmr]

@[simp] theorem stcDisturbance_bmr : st.stcDisturbance.bmr = st.bmr := by simp [stcDisturbance]

@[simp] theorem failAdjusted_bmr (s : Socket) (x : VerdictCause) : (st.failAdjusted s x).bmr = st.bmr := rfl

@[simp] theorem takeAdjusted_bmr (s : Socket) (o : AdjustOutcome) : (st.takeAdjusted s o).bmr = st.bmr := by
  unfold takeAdjusted
  split
  · simp
  · split <;> simp

@[simp] theorem adjustmentOutcome_bmr (s : Socket) : (adjustmentOutcome s st).bmr = st.bmr := by
  simp [adjustmentOutcome, apply_ite bmr]

@[simp] theorem stcMaskEnd_bmr (s : Socket) : (stcMaskEnd s st).bmr = st.bmr := by simp [stcMaskEnd, apply_ite bmr]

@[simp] theorem completeSocket_bmr (l : Bool) (s : Socket) : (completeSocket l s st).bmr = st.bmr := by
  simp [completeSocket, apply_ite bmr]

@[simp] theorem stcStepComplete_bmr : st.stcStepComplete.bmr = st.bmr := by simp [stcStepComplete]

@[simp] theorem takeBypassReport_bmr (s : Socket) (c : OutCause) : (st.takeBypassReport s c).bmr = st.bmr := by
  simp [takeBypassReport, apply_ite bmr]

@[simp] theorem localBypass_bmr (s : Socket) : (localBypass s st).bmr = st.bmr := by simp [localBypass]

@[simp] theorem muteNotice_bmr : st.muteNotice.bmr = st.bmr := by simp [muteNotice]

@[simp] theorem pauseSocket_bmr (s : Socket) : (pauseSocket s st).bmr = st.bmr := by
  unfold pauseSocket
  split <;> simp

@[simp] theorem stcPaused_bmr : st.stcPaused.bmr = st.bmr := by simp [stcPaused]

@[simp] theorem resumeSocket_bmr (s : Socket) : (resumeSocket s st).bmr = st.bmr := by
  simp [resumeSocket, apply_ite bmr]

@[simp] theorem stcResumed_bmr : st.stcResumed.bmr = st.bmr := by simp [stcResumed]

@[simp] theorem endSocket_bmr (e : EndCause) (s : Socket) : (endSocket e s st).bmr = st.bmr := by
  unfold endSocket
  split <;> simp

@[simp] theorem stcRunEnded_bmr : st.stcRunEnded.bmr = st.bmr := by
  refine stcNotice_bmr st fun e x => ?_
  have hclosed := each_bmr ((x.beforeVoids fun _ => true).each (endSocket e)) fun s x => closeShunt_bmr x s
  simpa using hclosed

/-! ### Time -/

@[simp] theorem tick_bmr : st.tick.bmr = st.bmr := rfl

end Station

/-! ### Which commands take an inbound entry -/

/-- The commands of the Bench Mirror: each takes an entry of its kind from the inbound queue (R2). -/
def takesEntry : Instr → Bool
  | .takeRunOpen => true
  | .takeJoin => true
  | .takeLoadSet => true
  | .takeVerdict => true
  | .takeBypass => true
  | .takeShed => true
  | .takePause => true
  | .takeResume => true
  | .takeRunAbort => true
  | .takeBenchFaultMarker => true
  | .takeLinkResetMarker => true
  | .takePoolExtend => true
  | .takeSealClaim => true
  | .takeSealDone => true
  | .takeSealSpoil => true
  | .takeAnnounce => true
  | .takeQuery => true
  | .takeState => true
  | _ => false

/-- What the effect on the station gives, the command gives; under power-on reset the station stays. -/
theorem State.run_bmr {s t : State} {f : Station → Station} {P : Mirror → Mirror → Prop} (h : s.run f = .next t)
    (hstay : ∀ m, P m m) (hf : ∀ st : Station, P st.bmr (f st).bmr) : P s.st.bmr t.st.bmr := by
  by_cases hr : s.st.cfl.stage = .inReset
  · rw [State.run_inReset hr] at h
    cases h
    exact hstay _
  · rw [State.run_awake hr] at h
    cases h
    exact hf _

theorem State.run_keeps_mirror {s t : State} {f : Station → Station} (hf : ∀ st : Station, (f st).bmr = st.bmr)
    (h : s.run f = .next t) : t.st.bmr = s.st.bmr :=
  State.run_bmr (P := fun m m' => m' = m) h (fun _ => rfl) hf

/-- A command that takes no entry leaves the mirror, power-on reset apart. -/
theorem exec_keeps_mirror {c : Instr} {s t : State} (hc : takesEntry c = false) (hr : c ≠ .powerOnReset)
    (h : exec c s = .next t) : t.st.bmr = s.st.bmr := by
  cases c
  case powerOnReset => exact absurd rfl hr
  case powerOnResetEnd straps rdyHigh lrst flt =>
    cases h
    exact Station.powerOnResetEnd_bmr _ straps rdyHigh lrst flt
  case takeRunOpen | takeJoin | takeLoadSet | takeVerdict | takeBypass | takeShed | takePause | takeResume | takeRunAbort
      | takeBenchFaultMarker | takeLinkResetMarker | takePoolExtend | takeSealClaim | takeSealDone | takeSealSpoil
      | takeAnnounce | takeQuery | takeState =>
    cases hc
  case detectEnd p r => exact State.run_keeps_mirror (fun st => st.atPosition_bmr fun x st => st.detectEnd_bmr x r) h
  case insertionSenseAboveVopen p =>
    exact State.run_keeps_mirror (fun st => st.atPosition_bmr fun x st => st.senseAboveVopen_bmr x) h
  case supervisionTimerRise p l =>
    exact State.run_keeps_mirror (fun st => st.atPosition_bmr fun x st => st.supervisionRise_bmr x l) h
  case replyReceived p bytes =>
    exact State.run_keeps_mirror (fun st => st.atPosition_bmr fun x st => st.replyReceived_bmr x bytes) h
  case strayByte p b => exact State.run_keeps_mirror (fun st => st.atPosition_bmr fun x st => st.strayByte_bmr x b) h
  all_goals exact State.run_keeps_mirror (fun st => by simp) h

/-- A millisecond leaves the mirror. -/
theorem idleStep_keeps_mirror {s t : State} (h : idleStep s = .next t) : t.st.bmr = s.st.bmr :=
  State.run_keeps_mirror Station.tick_bmr h

/-- Every command answers a next state. -/
theorem exec_next (c : Instr) (s : State) : ∃ t, exec c s = .next t := by
  cases c <;> exact ⟨_, rfl⟩

end Sys2Proof.Machine
end

section
/-! PROOFS. What taking an entry can do to the mirror, said once: its own effect, then the end test (R9). -/

namespace Sys2Proof.Machine

namespace Mirror

/-- The effects an entry can have on the mirror, a RUN_OPEN's apart (R19 to R33); the end test comes after each. -/
inductive Effect (m : Mirror) : Mirror → Prop
  | stays : Effect m m
  | joined {sender mask : Byte} {fp : W32} {js : Quad JoinSocket} {m' : Mirror} :
      m.join sender mask fp js = some m' → Effect m m'
  | loadSet {k : Nat} {m' : Mirror} {ns : List Notice} : m.loadSet k = some (m', ns) → Effect m m'
  | verdict {i k : Nat} {failed : Bool} {m' : Mirror} {ns : List Notice} :
      m.verdict i k failed = some (m', ns) → Effect m m'
  | bypass {i : Nat} {c : OutCause} {m' : Mirror} {ns : List Notice} : m.bypass i c = some (m', ns) → Effect m m'
  | paused {m' : Mirror} {ns : List Notice} : m.pause = some (m', ns) → Effect m m'
  | resumed {m' : Mirror} {ns : List Notice} : m.resume = some (m', ns) → Effect m m'
  | aborted {oc : OutCause} {ec : EndCause} {m' : Mirror} {ns : List Notice} :
      m.abort oc ec = some (m', ns) → Effect m m'
  | extended {f c : Nat} {m' : Mirror} {l : List (Nat × Nat)} :
      c ≤ 65535 → m.poolExtend f c = some (m', l) → Effect m m'
  | claimed (i : Nat) : Effect m (m.sealClaim i).1
  | sealDone (i n : Nat) : Effect m (m.sealDone i n).1
  | spoiled (i n : Nat) : Effect m (m.sealSpoil i n).1
  | announced (sender : Byte) : Effect m (m.announce sender).1

/-- What becomes of the mirror when a command takes the head of the queue, or finds nothing of its kind there. -/
def Taken (m m' : Mirror) : Prop := m' = m ∨ ∃ m1, m.Effect m1 ∧ m' = m1.endTest.1

theorem Taken.refl (m : Mirror) : m.Taken m := .inl rfl

theorem Effect.taken {m m1 : Mirror} (h : m.Effect m1) : m.Taken m1.endTest.1 := .inr ⟨m1, h, rfl⟩

/-- What an accepted RUN_OPEN makes of the mirror; its count field has 16 bits. -/
def Opened (m m' : Mirror) : Prop :=
  ∃ run slot fp first count steps, count ≤ 65535 ∧ m' = m.openRun run slot fp first count steps

end Mirror

namespace Station

variable {st : Station}

/-! ### The notices leave the mirror -/

@[simp] theorem give_bmr (st : Station) (n : Notice) : (st.give n).bmr = st.bmr := by cases n <;> rfl

@[simp] theorem giveAll_bmr (ns : List Notice) (st : Station) : (st.giveAll ns).bmr = st.bmr := by
  induction ns generalizing st with
  | nil => rfl
  | cons n ns ih => rw [giveAll_cons, ih, give_bmr]

@[simp] theorem giveAll_append (st : Station) (ns ms : List Notice) :
    st.giveAll (ns ++ ms) = (st.giveAll ns).giveAll ms := List.foldl_append

@[simp] theorem finishTake_bmr (st : Station) (rest : List Entry) (m : Mirror) (before after : List Notice) :
    (st.finishTake rest m before after).bmr = m.endTest.1 := by simp [finishTake]

/-! ### Taking the head -/

/-- The head is of the kind and is taken, or the station stays. -/
theorem takeHead_cases {β : Type} {pick : Body → Option β} {f : Frame → Bool → β → List Entry → Station}
    {P : Station → Prop} (hstay : P st) (hf : ∀ fr own b rest, P (f fr own b rest)) : P (st.takeHead pick f) := by
  unfold takeHead
  split
  · split
    · exact hf _ _ _ _
    · exact hstay
  · exact hstay

theorem finishTake_taken {m : Mirror} (h : st.bmr.Effect m) (rest : List Entry) (before after : List Notice) :
    st.bmr.Taken (st.finishTake rest m before after).bmr := by
  rw [finishTake_bmr]
  exact h.taken

theorem takeRunFrame_taken {fx : Mirror → Option (Mirror × List Notice)} (rest : List Entry) (run : Byte)
    (hfx : ∀ m ns, fx st.bmr = some (m, ns) → st.bmr.Effect m) : st.bmr.Taken (st.takeRunFrame rest run fx).bmr := by
  unfold takeRunFrame
  split
  · split
    case _ m ns h => exact finishTake_taken (hfx m ns h) _ _ _
    case _ => exact finishTake_taken .stays _ _ _
  · exact finishTake_taken .stays _ _ _

/-! ### Each command -/

theorem takeRunOpen_bmr (st : Station) : st.bmr.Taken st.takeRunOpen.bmr ∨ st.bmr.Opened st.takeRunOpen.bmr := by
  unfold takeRunOpen
  refine takeHead_cases (P := fun x => st.bmr.Taken x.bmr ∨ st.bmr.Opened x.bmr) (.inl (.refl _)) ?_
  rintro fr own ⟨sl, fp, f, c⟩ rest
  dsimp only
  split
  · exact .inl (finishTake_taken .stays _ _ _)
  · split
    · exact .inl (.refl _)
    · rw [finishTake_bmr, Mirror.endTest_notDue (Mirror.notDue_of_phase (by simp [Mirror.openRun]))]
      exact .inr ⟨_, _, _, _, c.toNat, _, Nat.le_of_lt_succ c.isLt, rfl⟩

theorem takeJoin_taken (st : Station) : st.bmr.Taken st.takeJoin.bmr := by
  unfold takeJoin
  refine takeHead_cases (P := fun x => st.bmr.Taken x.bmr) (.refl _) ?_
  rintro fr own ⟨mask, fp, js⟩ rest
  dsimp only
  split
  · split
    case _ m h =>
      refine finishTake_taken (.joined (sender := fr.sender) (mask := mask) (fp := fp) (js := js) ?_) _ _ _
      split at h
      · exact h
      · cases h
    case _ => exact finishTake_taken .stays _ _ _
  · exact finishTake_taken .stays _ _ _

theorem takeLoadSet_taken (st : Station) : st.bmr.Taken st.takeLoadSet.bmr :=
  takeHead_cases (P := fun x => st.bmr.Taken x.bmr) (.refl _) fun fr _ k rest =>
    takeRunFrame_taken rest fr.run fun m ns h => by
      split at h
      · exact .loadSet h
      · cases h

theorem takeVerdict_taken (st : Station) : st.bmr.Taken st.takeVerdict.bmr :=
  takeHead_cases (P := fun x => st.bmr.Taken x.bmr) (.refl _) fun fr _ ⟨s, k, v⟩ rest =>
    takeRunFrame_taken rest fr.run fun m ns h => by
      split at h
      · split at h
        · exact .verdict h
        · cases h
      · cases h

theorem takeBypass_taken (st : Station) : st.bmr.Taken st.takeBypass.bmr :=
  takeHead_cases (P := fun x => st.bmr.Taken x.bmr) (.refl _) fun fr _ ⟨s, c⟩ rest =>
    takeRunFrame_taken rest fr.run fun m ns h => by
      split at h
      · exact .bypass h
      · cases h

theorem takeShed_taken (st : Station) : st.bmr.Taken st.takeShed.bmr :=
  takeHead_cases (P := fun x => st.bmr.Taken x.bmr) (.refl _) fun fr _ l rest =>
    takeRunFrame_taken rest fr.run fun m ns h => by
      simp only [Mirror.shed, Option.ite_none_right_eq_some, Option.some.injEq, Prod.mk.injEq] at h
      obtain ⟨-, -, rfl, -⟩ := h
      exact .stays

theorem takePause_taken (st : Station) : st.bmr.Taken st.takePause.bmr :=
  takeHead_cases (P := fun x => st.bmr.Taken x.bmr) (.refl _) fun fr _ _ rest =>
    takeRunFrame_taken rest fr.run fun _ _ h => .paused h

theorem takeResume_taken (st : Station) : st.bmr.Taken st.takeResume.bmr :=
  takeHead_cases (P := fun x => st.bmr.Taken x.bmr) (.refl _) fun fr _ _ rest =>
    takeRunFrame_taken rest fr.run fun _ _ h => .resumed h

theorem takeRunAbort_taken (st : Station) : st.bmr.Taken st.takeRunAbort.bmr :=
  takeHead_cases (P := fun x => st.bmr.Taken x.bmr) (.refl _) fun fr _ _ rest =>
    takeRunFrame_taken rest fr.run fun _ _ h => .aborted h

theorem takeBenchFault_taken (st : Station) : st.bmr.Taken st.takeBenchFault.bmr := by
  unfold takeBenchFault
  split
  · split
    case _ m ns h => exact finishTake_taken (.aborted h) _ _ _
    case _ => exact finishTake_taken .stays _ _ _
  · exact .refl _

theorem takeLinkReset_taken (st : Station) : st.bmr.Taken st.takeLinkReset.bmr := by
  unfold takeLinkReset
  split
  · exact finishTake_taken .stays _ _ _
  · exact .refl _

theorem takePoolExtend_taken (st : Station) : st.bmr.Taken st.takePoolExtend.bmr := by
  unfold takePoolExtend
  refine takeHead_cases (P := fun x => st.bmr.Taken x.bmr) (.refl _) ?_
  rintro fr _ ⟨f, c⟩ rest
  dsimp only
  split
  · split
    case _ m l h => exact finishTake_taken (.extended (Nat.le_of_lt_succ c.isLt) h) _ _ _
    case _ => exact finishTake_taken .stays _ _ _
  · exact finishTake_taken .stays _ _ _

theorem takeSealClaim_taken (st : Station) : st.bmr.Taken st.takeSealClaim.bmr := by
  unfold takeSealClaim
  refine takeHead_cases (P := fun x => st.bmr.Taken x.bmr) (.refl _) fun fr own s rest => ?_
  dsimp only
  split
  · split
    · exact finishTake_taken (.claimed _) _ _ _
    · exact finishTake_taken .stays _ _ _
  · exact finishTake_taken .stays _ _ _

theorem takeSealDone_taken (st : Station) : st.bmr.Taken st.takeSealDone.bmr :=
  takeHead_cases (P := fun x => st.bmr.Taken x.bmr) (.refl _) fun fr _ ⟨s, n⟩ rest =>
    takeRunFrame_taken rest fr.run fun m ns h => by
      split at h
      · simp only [Option.ite_none_left_eq_some, Option.some.injEq] at h
        obtain rfl : _ = m := congrArg Prod.fst h.2
        exact .sealDone _ _
      · cases h

theorem takeSealSpoil_taken (st : Station) : st.bmr.Taken st.takeSealSpoil.bmr :=
  takeHead_cases (P := fun x => st.bmr.Taken x.bmr) (.refl _) fun fr _ ⟨s, n, c⟩ rest =>
    takeRunFrame_taken rest fr.run fun m ns h => by
      split at h
      · simp only [Option.ite_none_left_eq_some, Option.some.injEq] at h
        obtain rfl : _ = m := congrArg Prod.fst h.2
        exact .spoiled _ _
      · cases h

theorem takeAnnounce_taken (st : Station) : st.bmr.Taken st.takeAnnounce.bmr :=
  takeHead_cases (P := fun x => st.bmr.Taken x.bmr) (.refl _) fun fr _ _ rest =>
    finishTake_taken (.announced fr.sender) rest _ _

theorem takeQuery_taken (st : Station) : st.bmr.Taken st.takeQuery.bmr :=
  takeHead_cases (P := fun x => st.bmr.Taken x.bmr) (.refl _) fun _ _ _ _ => finishTake_taken .stays _ _ _

theorem takeState_taken (st : Station) : st.bmr.Taken st.takeState.bmr :=
  takeHead_cases (P := fun x => st.bmr.Taken x.bmr) (.refl _) fun _ _ _ _ => finishTake_taken .stays _ _ _

end Station

/-! ### Every command -/

/-- A command that takes an entry other than a RUN_OPEN. -/
theorem exec_taken {c : Instr} {s t : State} (hc : takesEntry c = true) (hr : c ≠ .takeRunOpen) (h : exec c s = .next t) :
    s.st.bmr.Taken t.st.bmr := by
  cases c
  case takeRunOpen => exact absurd rfl hr
  case takeJoin => exact State.run_bmr h .refl Station.takeJoin_taken
  case takeLoadSet => exact State.run_bmr h .refl Station.takeLoadSet_taken
  case takeVerdict => exact State.run_bmr h .refl Station.takeVerdict_taken
  case takeBypass => exact State.run_bmr h .refl Station.takeBypass_taken
  case takeShed => exact State.run_bmr h .refl Station.takeShed_taken
  case takePause => exact State.run_bmr h .refl Station.takePause_taken
  case takeResume => exact State.run_bmr h .refl Station.takeResume_taken
  case takeRunAbort => exact State.run_bmr h .refl Station.takeRunAbort_taken
  case takeBenchFaultMarker => exact State.run_bmr h .refl Station.takeBenchFault_taken
  case takeLinkResetMarker => exact State.run_bmr h .refl Station.takeLinkReset_taken
  case takePoolExtend => exact State.run_bmr h .refl Station.takePoolExtend_taken
  case takeSealClaim => exact State.run_bmr h .refl Station.takeSealClaim_taken
  case takeSealDone => exact State.run_bmr h .refl Station.takeSealDone_taken
  case takeSealSpoil => exact State.run_bmr h .refl Station.takeSealSpoil_taken
  case takeAnnounce => exact State.run_bmr h .refl Station.takeAnnounce_taken
  case takeQuery => exact State.run_bmr h .refl Station.takeQuery_taken
  case takeState => exact State.run_bmr h .refl Station.takeState_taken
  all_goals cases hc

/-- What every command other than power-on reset and TAKE_RUN_OPEN makes of the mirror. -/
theorem exec_mirror {c : Instr} {s t : State} (hp : c ≠ .powerOnReset) (hr : c ≠ .takeRunOpen) (h : exec c s = .next t) :
    s.st.bmr.Taken t.st.bmr := by
  cases hc : takesEntry c with
  | true => exact exec_taken hc hr h
  | false => exact .inl (exec_keeps_mirror hc hp h)

/-- What a step makes of the mirror: power-on reset, an opened run, an entry's effect and the end test, or nothing. -/
theorem step_mirror {s t : State} (h : step s = .next t) :
    t.st.bmr = .reset ∨ s.st.bmr.Opened t.st.bmr ∨ s.st.bmr.Taken t.st.bmr := by
  unfold step at h
  split at h
  · exact .inr (.inr (.inl (idleStep_keeps_mirror h)))
  case _ c cs hc =>
    by_cases hp : c = .powerOnReset
    · subst hp
      cases h
      exact .inl rfl
    · by_cases hr : c = .takeRunOpen
      · subst hr
        exact .inr (State.run_bmr (P := fun m m' => m.Opened m' ∨ m.Taken m') (s := { s with pending := cs }) h
          (fun m => .inr (.refl m)) fun st => (st.takeRunOpen_bmr).symm)
      · exact .inr (.inr (exec_mirror (s := { s with pending := cs }) hp hr h))

end Sys2Proof.Machine
end

section
/-! PROOFS. What each effect on the mirror leaves of its entries, and of the seal accounts (R6, R10 to R13). -/

namespace Sys2Proof.Machine

namespace Mirror

variable {m m' m'' : Mirror}

/-! ### Entries -/

theorem entry_beyond {i : Nat} (h : m.roster.length ≤ i) : m.entry i = .absent := by
  simp [entry, h]

theorem lt_of_state {i : Nat} {x : EntryState} (h : (m.entry i).state = x) (hx : x ≠ .absent) : i < m.roster.length :=
  (entry_mem_of_state h hx).1

theorem entry_of_map {f : RosterEntry → RosterEntry} (hr : m'.roster = m.roster.map f) (hf : f .absent = .absent) (i : Nat) :
    m'.entry i = f (m.entry i) := by
  unfold entry
  rw [hr, ← List.getD_map (f := f), hf]

theorem entry_of_mapIdx {g : Nat → RosterEntry → RosterEntry} (hr : m'.roster = m.roster.mapIdx g) {i : Nat}
    (hi : i < m.roster.length) : m'.entry i = g i (m.entry i) := by
  simp [entry, hr, hi]

theorem entry_setEntry (m : Mirror) (i j : Nat) (e : RosterEntry) :
    (m.setEntry i e).entry j = if j = i ∧ i < m.roster.length then e else m.entry j := by
  by_cases h : j = i
  · subst h
    by_cases hi : j < m.roster.length
    · simp [hi]
    · simp only [hi, and_false, if_false]
      rw [entry_beyond (m := m) (by omega), entry_beyond (by simpa [setEntry] using hi)]
  · simp [h, entry_setEntry_other h]

/-! ### The parts of the operations -/

/-- The mirror after a completed last step (R8). -/
def lastStepDone (m : Mirror) : Mirror :=
  { m with roster := m.roster.map fun e => if e.state = .active then { e with state := .done } else e,
           phase := .sealing, step := none, stepComplete := false }

theorem completeStep_last {k : Nat} (h : m.stepCount = some (k + 1)) :
    m.completeStep k = (m.lastStepDone, [.stepComplete k true, .sealing]) := if_pos h

theorem completeStep_notLast {k : Nat} (h : m.stepCount ≠ some (k + 1)) :
    m.completeStep k = ({ m with stepComplete := true }, [.stepComplete k false]) := if_neg h

/-- What the step-completion test can make of the mirror (R7, R8). -/
theorem stepTest_cases (m : Mirror) : m.stepTest.1 = m ∨ m.stepTest.1 = m.endRun .noneLeft ∨
    m.stepTest.1 = { m with stepComplete := true } ∨ m.stepTest.1 = m.lastStepDone := by
  unfold stepTest
  split
  case _ k _ _ =>
    split
    · exact .inr (.inl rfl)
    · split
      · by_cases h : m.stepCount = some (k + 1)
        · rw [completeStep_last h]
          exact .inr (.inr (.inr rfl))
        · rw [completeStep_notLast h]
          exact .inr (.inr (.inl rfl))
      · exact .inl rfl
  case _ => exact .inl rfl

theorem endTest_cases (m : Mirror) : m.endTest.1 = m ∨ m.endTest.1 = m.endRun .complete := by
  by_cases h : m.EndDue
  · exact .inr (congrArg Prod.fst (endTest_due h))
  · exact .inl (congrArg Prod.fst (endTest_notDue h))

theorem entry_lastStepDone (i : Nat) : m.lastStepDone.entry i =
    if (m.entry i).state = .active then { m.entry i with state := .done } else m.entry i :=
  entry_of_map (f := fun e => if e.state = .active then { e with state := .done } else e) rfl rfl i

theorem entry_moveOut (m : Mirror) (i j : Nat) (c : OutCause) : (m.moveOut i c).entry j =
    if j = i ∧ i < m.roster.length then { m.entry i with state := .out, out := some c } else m.entry j :=
  entry_setEntry m i j _

theorem entry_join {sender mask : Byte} {fp : W32} {js : Quad JoinSocket} (h : m.join sender mask fp js = some m') (i : Nat) :
    m'.entry i = if i / 4 = sender.toNat ∧ (maskFlags mask).get (Fin.ofNat 4 i) = true ∧ i < m.roster.length then
        { RosterEntry.absent with state := .active, cls := (js.get (Fin.ofNat 4 i)).cls }
      else m.entry i := by
  simp only [join, Option.ite_none_right_eq_some, Option.some.injEq] at h
  obtain ⟨-, rfl⟩ := h
  by_cases hi : i < m.roster.length
  · rw [entry_of_mapIdx rfl hi]
    simp [hi]
  · rw [entry_beyond (by simpa using hi), entry_beyond (m := m) (by omega)]
    simp [hi]

/-- A JOIN is applied only to a node of ABSENT entries (R20). -/
theorem absent_of_join {sender mask : Byte} {fp : W32} {js : Quad JoinSocket} (h : m.join sender mask fp js = some m')
    {i : Nat} (hi : i / 4 = sender.toNat) : (m.entry i).state = .absent := by
  simp only [join, Option.ite_none_right_eq_some, List.all_eq_true, beq_iff_eq] at h
  obtain ⟨⟨-, habsent, -⟩, -⟩ := h
  have hx := habsent (Fin.ofNat 4 i) (by generalize Fin.ofNat 4 i = x; revert x; decide)
  have hpos : rosterPos sender (Fin.ofNat 4 i) = i := by
    simp only [rosterPos, Fin.ofNat]
    omega
  rwa [hpos] at hx

/-- The mirror as stepping starts (R21). -/
def stepBegun (m : Mirror) : Mirror := { m with phase := .stepping, step := some 0, stepComplete := false }

theorem loadSet_begins (hp : m.phase = .joining) (ha : m.has .active = true) : m.loadSet 0 =
    some (m.stepBegun.stepTest.1, .loadSet 0 m.stepBegun.stepTest.1.paused false :: m.stepBegun.stepTest.2) := by
  simp only [loadSet, hp, ha, and_self, if_true]
  rfl

theorem loadSet_noneLeft (hp : m.phase = .joining) (ha : m.has .active = false) :
    m.loadSet 0 = some (m.endRun .noneLeft, [.loadSet 0 false true, .ended .noneLeft]) := by
  simp only [loadSet, hp, ha, and_self, if_true]
  rfl

theorem loadSet_advances {c : Nat} (hp : m.phase = .stepping) (hs : m.step = some c) (hc : m.stepComplete = true) :
    m.loadSet (c + 1) =
      some ({ m with step := some (c + 1), stepComplete := false }, [.loadSet (c + 1) m.paused false]) := by
  simp [loadSet, hp, hs, hc]

theorem loadSet_ignored {k : Nat} (h0 : ¬ (m.phase = .joining ∧ k = 0))
    (h1 : ¬ (m.phase = .stepping ∧ m.stepComplete = true ∧ m.step.map (· + 1) = some k)) : m.loadSet k = none := by
  simp only [loadSet, h0, h1, if_false]

/-- The three things a LOAD_SET can do (R21). -/
theorem loadSet_cases {k : Nat} {ns : List Notice} (h : m.loadSet k = some (m', ns)) :
    m' = m.stepBegun.stepTest.1 ∨ m' = m.endRun .noneLeft ∨ m' = { m with step := some k, stepComplete := false } := by
  by_cases h0 : m.phase = .joining ∧ k = 0
  · obtain ⟨hp, rfl⟩ := h0
    cases ha : m.has .active with
    | true =>
      rw [loadSet_begins hp ha] at h
      cases h
      exact .inl rfl
    | false =>
      rw [loadSet_noneLeft hp ha] at h
      cases h
      exact .inr (.inl rfl)
  · by_cases h1 : m.phase = .stepping ∧ m.stepComplete = true ∧ m.step.map (· + 1) = some k
    · obtain ⟨hp, hc, hnext⟩ := h1
      obtain ⟨c, hs, rfl⟩ := Option.map_eq_some_iff.mp hnext
      rw [loadSet_advances hp hs hc] at h
      cases h
      exact .inr (.inr rfl)
    · rw [loadSet_ignored h0 h1] at h
      cases h

/-- A verdict of the current step for an ACTIVE entry that has none of this step (R22). -/
theorem verdict_applied {i k : Nat} {failed : Bool} (hp : m.phase = .stepping) (ha : (m.entry i).state = .active)
    (hs : m.step = some k) (hv : (m.entry i).lastVerdict ≠ some k) : m.verdict i k failed =
      some (if failed then (m.moveOut i .failed).stepTest
        else (m.setEntry i { m.entry i with lastVerdict := some k }).stepTest) :=
  if_pos ⟨hp, ha, hs, hv⟩

/-- An ACTIVE entry that moves OUT leaves the waiting list as it is. -/
theorem moveOut_active {i : Nat} {c : OutCause} (ha : (m.entry i).state = .active) :
    m.moveOut i c = m.setEntry i { m.entry i with state := .out, out := some c } := by
  simp [moveOut, ha, setEntry]

/-- A verdict that acts changes an ACTIVE entry (R22). -/
theorem verdict_cases {i k : Nat} {failed : Bool} {ns : List Notice} (h : m.verdict i k failed = some (m', ns)) :
    (m.entry i).state = .active ∧ (m' = (m.moveOut i .failed).stepTest.1 ∨
      m' = (m.setEntry i { m.entry i with lastVerdict := some k }).stepTest.1) := by
  simp only [verdict, Option.ite_none_right_eq_some, Option.some.injEq] at h
  obtain ⟨⟨-, hactive, -, -⟩, h⟩ := h
  cases failed
  · exact ⟨hactive, .inr (congrArg Prod.fst h).symm⟩
  · exact ⟨hactive, .inl (congrArg Prod.fst h).symm⟩

theorem bypass_stepping {i : Nat} {c : OutCause} (hin : inRun (m.entry i).state = true) (hp : m.phase = .stepping) :
    m.bypass i c = some ((m.moveOut i c).stepTest.1, .disturbance :: (m.moveOut i c).stepTest.2) := by
  simp only [bypass, hin, hp, if_true]

theorem bypass_elsewhere {i : Nat} {c : OutCause} (hin : inRun (m.entry i).state = true) (hp : m.phase ≠ .stepping) :
    m.bypass i c = some (m.moveOut i c, []) := by
  simp only [bypass, hin, hp, if_true, if_false]

/-- A bypass that acts moves an ACTIVE, DONE or SEAL_WAIT entry (R23). -/
theorem bypass_cases {i : Nat} {c : OutCause} {ns : List Notice} (h : m.bypass i c = some (m', ns)) :
    inRun (m.entry i).state = true ∧ (m' = (m.moveOut i c).stepTest.1 ∨ m' = m.moveOut i c) := by
  by_cases hin : inRun (m.entry i).state = true
  · by_cases hp : m.phase = .stepping
    · rw [bypass_stepping hin hp] at h
      cases h
      exact ⟨hin, .inl rfl⟩
    · rw [bypass_elsewhere hin hp] at h
      cases h
      exact ⟨hin, .inr rfl⟩
  · simp [bypass, hin] at h

theorem pause_some {ns : List Notice} (h : m.pause = some (m', ns)) : m' = { m with paused := true } := by
  simp only [pause, Option.ite_none_right_eq_some, Option.some.injEq, Prod.mk.injEq] at h
  exact h.2.1.symm

theorem resume_some {ns : List Notice} (h : m.resume = some (m', ns)) : m' = { m with paused := false } := by
  simp only [resume, Option.ite_none_right_eq_some, Option.some.injEq, Prod.mk.injEq] at h
  exact h.2.1.symm

/-- What RUN_ABORT or the bench-fault marker makes of an open run's mirror (R26, R27). -/
def abortedBy (m : Mirror) (oc : OutCause) (ec : EndCause) : Mirror :=
  { m.endRun ec with
    roster := m.roster.map fun e => if inRun e.state then { e with state := .out, out := some oc } else e, waiting := [] }

theorem abort_open {oc : OutCause} {ec : EndCause} (h : m.phase.isOpen = true) :
    m.abort oc ec = some (m.abortedBy oc ec, [.ended ec]) := if_pos h

theorem abort_notOpen {oc : OutCause} {ec : EndCause} (h : m.phase.isOpen = false) : m.abort oc ec = none :=
  if_neg (by simp [h])

theorem abort_some {oc : OutCause} {ec : EndCause} {ns : List Notice} (h : m.abort oc ec = some (m', ns)) :
    m' = m.abortedBy oc ec := by
  cases hopen : m.phase.isOpen with
  | false => simp [abort_notOpen hopen] at h
  | true =>
    rw [abort_open hopen] at h
    cases h
    rfl

theorem entry_abortedBy (oc : OutCause) (ec : EndCause) (i : Nat) : (m.abortedBy oc ec).entry i =
    if inRun (m.entry i).state then { m.entry i with state := .out, out := some oc } else m.entry i :=
  entry_of_map (f := fun e => if inRun e.state then { e with state := .out, out := some oc } else e) rfl rfl i

/-- The numbers that the entries of a node hold (R32). -/
def claimsOf (m : Mirror) (node : Nat) : Nat :=
  (List.finRange 4).countP fun x : Socket => (m.entry (node * 4 + x.val)).state == .claimed

/-- The mirror with a node's positions closed, before any test (R32). -/
def closeNode (m : Mirror) (node : Nat) : Mirror :=
  { m with
    roster := m.roster.mapIdx fun i e => if i / 4 = node then restarted e else e,
    waiting := m.waiting.filter fun i => i / 4 != node,
    spoiledCount := m.spoiledCount + m.claimsOf node }

/-- R32: the node's positions close; in STEPPING the step-completion test follows, with a disturbance where an ACTIVE entry
went. -/
theorem announce_eq (m : Mirror) (sender : Byte) : m.announce sender =
    if m.phase = .stepping then
      ((m.closeNode sender.toNat).stepTest.1,
        if ([0, 1, 2, 3].any fun x : Socket => (m.entry (rosterPos sender x)).state == .active) then
          .disturbance :: (m.closeNode sender.toNat).stepTest.2
        else (m.closeNode sender.toNat).stepTest.2)
    else (m.closeNode sender.toNat, []) := by
  have hclaims : (([0, 1, 2, 3].map fun x : Socket => m.entry (rosterPos sender x)).filter
      fun e => e.state == .claimed).length = m.claimsOf sender.toNat := by
    rw [← List.countP_eq_length_filter, List.countP_map]
    rfl
  unfold announce
  simp only [hclaims, List.any_map]
  rfl

theorem restarted_absent : restarted .absent = .absent := rfl

theorem entry_closeNode (m : Mirror) (node i : Nat) :
    (m.closeNode node).entry i = if i / 4 = node then restarted (m.entry i) else m.entry i := by
  by_cases hi : i < m.roster.length
  · rw [entry_of_mapIdx rfl hi]
  · rw [entry_beyond (by simpa [closeNode] using hi), entry_beyond (m := m) (by omega), restarted_absent, ite_self]

theorem restarted_keeps {e : RosterEntry} (h : inRunOrClaimed e.state = false) : restarted e = e := by
  simp only [inRunOrClaimed, working] at h
  simp only [restarted, inRun, h]
  rfl

theorem restarted_moves {e : RosterEntry} (h : inRunOrClaimed e.state = true) :
    restarted e = { e with state := .out, out := some .restart, number := none } := by
  simp only [inRunOrClaimed, working] at h
  simp only [restarted, inRun, h]
  rfl

theorem assign_cons {b : PoolBlock} {bs : List PoolBlock} (hp : m.pool = b :: bs) (i : Nat) : m.assign i =
    ({ m.setEntry i { m.entry i with state := .claimed, number := some (b.first + b.next) } with
        pool := if b.next + 1 = b.count then bs else { b with next := b.next + 1 } :: bs,
        issued := m.issued + 1 }, b.first + b.next) := by
  simp only [assign, hp]

theorem entry_assign {b : PoolBlock} {bs : List PoolBlock} (hp : m.pool = b :: bs) (i j : Nat) : (m.assign i).1.entry j =
    if j = i ∧ i < m.roster.length then { m.entry i with state := .claimed, number := some (b.first + b.next) }
    else m.entry j := by
  rw [assign_cons hp]
  exact entry_setEntry m i j _

theorem serve_cons {b : PoolBlock} {bs : List PoolBlock} (hp : m.pool = b :: bs) (i : Nat) (is : List Nat) :
    serve (i :: is) m = ((serve is (m.assign i).1).1, (i, (m.assign i).2) :: (serve is (m.assign i).1).2) := by
  simp [serve, hp]

theorem sealClaim_takes {i : Nat} {b : PoolBlock} {bs : List PoolBlock} (hp : m.phase = .sealing)
    (hs : (m.entry i).state = .done) (hb : m.pool = b :: bs) :
    m.sealClaim i = ((m.assign i).1, .assigned (b.first + b.next)) := by
  simp [sealClaim, hp, hs, hb, assign_cons hb]

theorem sealClaim_waits {i : Nat} (hp : m.phase = .sealing) (hs : (m.entry i).state = .done) (hb : m.pool = []) :
    m.sealClaim i =
      ({ m.setEntry i { m.entry i with state := .sealWait } with waiting := m.waiting ++ [i] }, .waiting) := by
  simp [sealClaim, hp, hs, hb]

theorem sealClaim_refused {i : Nat} (h : m.phase ≠ .sealing ∨ (m.entry i).state ≠ .done) :
    m.sealClaim i = (m, .refused) :=
  if_neg fun hc => h.elim (fun h => h hc.1) fun h => h hc.2

/-- A claim is refused, waits for a number, or takes one (R30). -/
theorem sealClaim_cases (m : Mirror) (i : Nat) : (m.sealClaim i).1 = m ∨ (m.entry i).state = .done ∧
    (m.pool = [] ∧ (m.sealClaim i).1 =
        { m.setEntry i { m.entry i with state := .sealWait } with waiting := m.waiting ++ [i] } ∨
      ∃ b bs, m.pool = b :: bs ∧ (m.sealClaim i).1 = (m.assign i).1) := by
  by_cases h : m.phase = .sealing ∧ (m.entry i).state = .done
  · obtain ⟨hp, hs⟩ := h
    cases hb : m.pool with
    | nil => exact .inr ⟨hs, .inl ⟨rfl, by rw [sealClaim_waits hp hs hb]⟩⟩
    | cons b bs => exact .inr ⟨hs, .inr ⟨b, bs, rfl, by rw [sealClaim_takes hp hs hb]⟩⟩
  · exact .inl (by rw [sealClaim_refused (not_and_or.mp h)])

theorem sealDone_closes {i n : Nat} (hs : (m.entry i).state = .claimed) (hn : (m.entry i).number = some n) :
    m.sealDone i n =
      ({ m.setEntry i { m.entry i with state := .sealed } with sealedCount := m.sealedCount + 1 }, []) := by
  simp [sealDone, hs, hn]

theorem sealSpoil_closes {i n : Nat} (hs : (m.entry i).state = .claimed) (hn : (m.entry i).number = some n) :
    m.sealSpoil i n = ({ m.setEntry i { m.entry i with state := .out, out := some .sealSpoiled } with
      spoiledCount := m.spoiledCount + 1 }, []) := by
  simp [sealSpoil, hs, hn]

theorem sealDone_mismatch {i n : Nat} (hs : (m.entry i).state = .claimed) (hn : (m.entry i).number ≠ some n) :
    m.sealDone i n = (m, [.mirrorCheck]) := by
  simp [sealDone, hs, hn]

theorem sealSpoil_mismatch {i n : Nat} (hs : (m.entry i).state = .claimed) (hn : (m.entry i).number ≠ some n) :
    m.sealSpoil i n = (m, [.mirrorCheck]) := by
  simp [sealSpoil, hs, hn]

theorem sealDone_ignored {i n : Nat} (hs : (m.entry i).state ≠ .claimed) : m.sealDone i n = (m, []) := if_pos hs

theorem sealSpoil_ignored {i n : Nat} (hs : (m.entry i).state ≠ .claimed) : m.sealSpoil i n = (m, []) := if_pos hs

/-- A SEAL_DONE leaves the mirror, or seals a CLAIMED entry of its number (R31). -/
theorem sealDone_cases (m : Mirror) (i n : Nat) : (m.sealDone i n).1 = m ∨
    (m.entry i).state = .claimed ∧ (m.entry i).number = some n ∧
      (m.sealDone i n).1 =
        { m.setEntry i { m.entry i with state := .sealed } with sealedCount := m.sealedCount + 1 } := by
  by_cases hs : (m.entry i).state = .claimed
  · by_cases hn : (m.entry i).number = some n
    · exact .inr ⟨hs, hn, by rw [sealDone_closes hs hn]⟩
    · exact .inl (by rw [sealDone_mismatch hs hn])
  · exact .inl (by rw [sealDone_ignored hs])

/-- A SEAL_SPOIL leaves the mirror, or takes OUT a CLAIMED entry of its number (R31). -/
theorem sealSpoil_cases (m : Mirror) (i n : Nat) : (m.sealSpoil i n).1 = m ∨
    (m.entry i).state = .claimed ∧ (m.entry i).number = some n ∧
      (m.sealSpoil i n).1 = { m.setEntry i { m.entry i with state := .out, out := some .sealSpoiled } with
        spoiledCount := m.spoiledCount + 1 } := by
  by_cases hs : (m.entry i).state = .claimed
  · by_cases hn : (m.entry i).number = some n
    · exact .inr ⟨hs, hn, by rw [sealSpoil_closes hs hn]⟩
    · exact .inl (by rw [sealSpoil_mismatch hs hn])
  · exact .inl (by rw [sealSpoil_ignored hs])

theorem extendAccepted_iff {f c : Nat} : m.extendAccepted f c = true ↔
    m.phase.isOpen = true ∧ m.pool.length < 4 ∧ m.highWater < f ∧ 1 ≤ c ∧ f + c - 1 ≤ 4294967295 := by
  simp only [extendAccepted, Bool.and_eq_true, decide_eq_true_eq, and_assoc]
  rfl

/-- R29: the mirror with the block appended, before any waiting claim is served. -/
def withBlock (m : Mirror) (f c : Nat) : Mirror :=
  { m with pool := m.pool ++ [{ first := f, count := c, next := 0 }], highWater := f + c - 1 }

theorem poolExtend_eq (m : Mirror) (f c : Nat) : m.poolExtend f c =
    if m.extendAccepted f c then some (serve m.waiting (m.withBlock f c)) else none := rfl

theorem poolExtend_some {f c : Nat} {l : List (Nat × Nat)} (h : m.poolExtend f c = some (m', l)) :
    m.extendAccepted f c = true ∧ m' = (serve m.waiting (m.withBlock f c)).1 := by
  simp only [poolExtend_eq, Option.ite_none_right_eq_some, Option.some.injEq] at h
  exact ⟨h.1, (congrArg Prod.fst h.2).symm⟩

/-! ### SEALED and OUT entries (R6) -/

/-- Every SEALED or OUT entry of the one mirror is the same in the other. -/
def KeepsClosed (m m' : Mirror) : Prop :=
  ∀ i, (m.entry i).state = .sealed ∨ (m.entry i).state = .out → m'.entry i = m.entry i

namespace KeepsClosed

theorem of_roster (h : m'.roster = m.roster) : m.KeepsClosed m' := fun i _ => by simp [entry, h]

theorem trans (h : m.KeepsClosed m') (h' : m'.KeepsClosed m'') : m.KeepsClosed m'' := fun i hi => by
  have hsame := h i hi
  rw [h' i (by rwa [hsame]), hsame]

theorem setEntry {i : Nat} (e : RosterEntry) (hi : (m.entry i).state ≠ .sealed ∧ (m.entry i).state ≠ .out) :
    m.KeepsClosed (m.setEntry i e) := fun j hj => by
  rw [entry_setEntry, if_neg]
  rintro ⟨rfl, -⟩
  exact hj.elim hi.1 hi.2

theorem stepTest (m : Mirror) : m.KeepsClosed m.stepTest.1 := by
  rcases m.stepTest_cases with h | h | h | h <;> rw [h]
  · exact .of_roster rfl
  · exact .of_roster rfl
  · exact .of_roster rfl
  · intro i hi
    rw [entry_lastStepDone, if_neg]
    rcases hi with hi | hi <;> simp [hi]

theorem endTest (m : Mirror) : m.KeepsClosed m.endTest.1 := by
  rcases m.endTest_cases with h | h <;> rw [h] <;> exact .of_roster rfl

theorem moveOut {i : Nat} (c : OutCause) (hi : (m.entry i).state ≠ .sealed ∧ (m.entry i).state ≠ .out) :
    m.KeepsClosed (m.moveOut i c) := (setEntry _ hi : m.KeepsClosed (m.setEntry i _))

theorem assign {i : Nat} (hi : (m.entry i).state ≠ .sealed ∧ (m.entry i).state ≠ .out) :
    m.KeepsClosed (m.assign i).1 := by
  cases hp : m.pool with
  | nil => exact .of_roster (by simp [Mirror.assign, hp])
  | cons b bs =>
    rw [assign_cons hp]
    exact (setEntry _ hi : m.KeepsClosed (m.setEntry i _))

/-- Serving moves only the positions it serves. -/
theorem serve {l : List Nat} (hl : ∀ i ∈ l, (m.entry i).state = .sealWait) (hn : l.Nodup) :
    m.KeepsClosed (serve l m).1 := by
  induction l generalizing m with
  | nil => exact .of_roster rfl
  | cons i is ih =>
    cases hp : m.pool with
    | nil => exact .of_roster (by rw [serve_nil_pool _ _ hp])
    | cons b bs =>
      obtain ⟨hi, hn⟩ := List.nodup_cons.mp hn
      rw [serve_cons hp]
      refine (assign (i := i) (by simp [hl i (by simp)])).trans (ih (fun j hj => ?_) hn)
      rw [entry_assign hp, if_neg (by rintro ⟨rfl, -⟩; exact hi hj)]
      exact hl j (by simp [hj])

end KeepsClosed

/-- No effect of an entry moves a SEALED or OUT position. -/
theorem effect_keepsClosed (hw : m.WaitingSound) (h : m.Effect m') : m.KeepsClosed m' := by
  obtain ⟨hnodup, hwait, -⟩ := hw
  cases h with
  | stays => exact .of_roster rfl
  | joined h =>
    intro i hi
    rw [entry_join h, if_neg]
    rintro ⟨hnode, -⟩
    simp [absent_of_join h hnode] at hi
  | loadSet h =>
    rcases loadSet_cases h with rfl | rfl | rfl
    · exact (KeepsClosed.of_roster (m := m) (m' := m.stepBegun) rfl).trans (.stepTest _)
    · exact .of_roster rfl
    · exact .of_roster rfl
  | verdict h =>
    obtain ⟨hactive, rfl | rfl⟩ := verdict_cases h
    · exact (KeepsClosed.moveOut _ (by simp [hactive])).trans (.stepTest _)
    · exact (KeepsClosed.setEntry _ (by simp [hactive])).trans (.stepTest _)
  | @bypass i c _ _ h =>
    obtain ⟨hin, h⟩ := bypass_cases h
    have hmove : m.KeepsClosed (m.moveOut i c) := .moveOut c ⟨fun hs => by simp [inRun, hs] at hin, fun hs => by
      simp [inRun, hs] at hin⟩
    obtain rfl | rfl := h
    · exact hmove.trans (.stepTest _)
    · exact hmove
  | paused h => exact .of_roster (by rw [pause_some h])
  | resumed h => exact .of_roster (by rw [resume_some h])
  | aborted h =>
    intro i hi
    rw [abort_some h, entry_abortedBy, if_neg]
    rcases hi with hi | hi <;> simp [hi, inRun]
  | @extended f c _ _ _ h =>
    rw [(poolExtend_some h).2]
    exact (KeepsClosed.of_roster (m := m) (m' := m.withBlock f c) rfl).trans (.serve hwait hnodup)
  | claimed i =>
    rcases m.sealClaim_cases i with h | ⟨hs, ⟨-, h⟩ | ⟨_, _, -, h⟩⟩ <;> rw [h]
    · exact .of_roster rfl
    · exact (KeepsClosed.setEntry _ (by simp [hs]) : m.KeepsClosed (m.setEntry i _))
    · exact .assign (by simp [hs])
  | sealDone i n =>
    rcases m.sealDone_cases i n with h | ⟨hs, -, h⟩ <;> rw [h]
    · exact .of_roster rfl
    · exact (KeepsClosed.setEntry _ (by simp [hs]) : m.KeepsClosed (m.setEntry i _))
  | spoiled i n =>
    rcases m.sealSpoil_cases i n with h | ⟨hs, -, h⟩ <;> rw [h]
    · exact .of_roster rfl
    · exact (KeepsClosed.setEntry _ (by simp [hs]) : m.KeepsClosed (m.setEntry i _))
  | announced sender =>
    have hclose : m.KeepsClosed (m.closeNode sender.toNat) := fun i hi => by
      rw [entry_closeNode, restarted_keeps, ite_self]
      rcases hi with hi | hi <;> simp [hi, inRunOrClaimed, working]
    rw [announce_eq]
    split
    · exact hclose.trans (.stepTest _)
    · exact hclose

end Mirror

/-- Settles O31: of all commands only power-on reset and TAKE_RUN_OPEN touch a SEALED or OUT entry. -/
theorem sealedAndOutEntriesStay : Obligations.SealedAndOutEntriesStay := by
  intro c s i hw hp hr hi
  obtain ⟨t, ht⟩ := exec_next c s
  refine ⟨t, ht, ?_⟩
  rcases exec_mirror hp hr ht with h | ⟨m, he, h⟩
  · rw [h]
  · rw [h]
    exact (Mirror.effect_keepsClosed hw he).trans (.endTest m) i hi

end Sys2Proof.Machine
end

section
/-! PROOFS. The seal accounts (R10 to R13): what issues no number keeps them, and so do the three effects that issue one, append
a block or open a run. -/

namespace Sys2Proof.Machine

namespace Mirror

variable {m m' m'' : Mirror}

/-! ### Counting entries -/

/-- The elements of a list that pass a test, counted index by index; the indices beyond it give the default, which fails. -/
theorem countP_eq_sum {α : Type} (p : α → Bool) (d : α) (hd : p d = false) (l : List α) (n : Nat) (hn : l.length ≤ n) :
    l.countP p = ∑ i ∈ Finset.range n, if p (l.getD i d) = true then 1 else 0 := by
  induction l generalizing n with
  | nil => simp [hd]
  | cons a l ih =>
    obtain ⟨n, rfl⟩ : ∃ k, n = k + 1 := ⟨n - 1, by simp at hn; omega⟩
    rw [List.countP_cons, Finset.sum_range_succ', ih n (by simpa using hn)]
    simp

/-- The entries in a state, counted index by index. -/
theorem countOf_eq_sum {x : EntryState} (hx : x ≠ .absent) {n : Nat} (hn : m.roster.length ≤ n) :
    m.countOf x = ∑ i ∈ Finset.range n, if (m.entry i).state = x then 1 else 0 := by
  unfold countOf
  rw [countP_eq_sum (fun e => e.state == x) .absent (by simpa [RosterEntry.absent] using hx.symm) m.roster n hn]
  simp [entry]

theorem countOf_congr {x : EntryState} (hx : x ≠ .absent)
    (h : ∀ i, (m'.entry i).state = x ↔ (m.entry i).state = x) : m'.countOf x = m.countOf x := by
  rw [countOf_eq_sum hx (Nat.le_max_left m'.roster.length m.roster.length),
    countOf_eq_sum hx (Nat.le_max_right m'.roster.length m.roster.length)]
  exact Finset.sum_congr rfl fun i _ => by simp [h i]

theorem countOf_setEntry {i : Nat} (hi : i < m.roster.length) (e : RosterEntry) (x : EntryState) :
    (m.setEntry i e).countOf x + (if (m.entry i).state = x then 1 else 0) =
      m.countOf x + (if e.state = x then 1 else 0) := by
  have hentry : m.entry i = m.roster[i] := by simp [entry, hi]
  have hpos : (if (m.roster[i].state == x) = true then 1 else 0) ≤ m.countOf x := by
    split
    · exact List.countP_pos_iff.mpr ⟨_, List.getElem_mem hi, by assumption⟩
    · exact Nat.zero_le _
  have hset : (m.setEntry i e).countOf x =
      m.countOf x - (if (m.roster[i].state == x) = true then 1 else 0) + (if (e.state == x) = true then 1 else 0) :=
    List.countP_set hi
  simp only [beq_iff_eq] at hpos hset
  rw [hset, hentry]
  omega

theorem countOf_claimed {i : Nat} {e : RosterEntry} (hi : i < m.roster.length) (hs : (m.entry i).state ≠ .claimed)
    (he : e.state = .claimed) : (m.setEntry i e).countOf .claimed = m.countOf .claimed + 1 := by
  simpa [hs, he] using countOf_setEntry hi e .claimed

/-- The CLAIMED entries of a closed node are those that leave the count. -/
theorem countOf_closeNode (m : Mirror) (node : Nat) :
    (m.closeNode node).countOf .claimed + m.claimsOf node = m.countOf .claimed := by
  have hlen : (m.closeNode node).roster.length = m.roster.length := by simp [closeNode]
  have hfour : (Finset.range (max m.roster.length (node * 4 + 4))).filter (fun i => i / 4 = node) =
      (Finset.range 4).image (fun x => node * 4 + x) := by
    ext i
    simp only [Finset.mem_filter, Finset.mem_range, Finset.mem_image]
    exact ⟨fun h => ⟨i % 4, by omega, by omega⟩, by rintro ⟨x, hx, rfl⟩; omega⟩
  have hclaims : m.claimsOf node = ∑ i ∈ Finset.range (max m.roster.length (node * 4 + 4)),
      if i / 4 = node then (if (m.entry i).state = .claimed then 1 else 0) else 0 := by
    rw [← Finset.sum_filter, hfour, Finset.sum_image (by intro a _ b _ h; simpa using h)]
    have hsockets : List.finRange 4 = [0, 1, 2, 3] := rfl
    simp only [claimsOf, hsockets, List.countP_cons, List.countP_nil, Finset.sum_range_succ, Finset.sum_range_zero,
      beq_iff_eq, Fin.coe_ofNat_eq_mod, Nat.zero_mod, Nat.reduceMod]
    ring
  rw [countOf_eq_sum (by simp) (Nat.le_max_left m.roster.length (node * 4 + 4)),
    countOf_eq_sum (by simp) (hlen.le.trans (Nat.le_max_left m.roster.length (node * 4 + 4))), hclaims,
    ← Finset.sum_add_distrib]
  refine Finset.sum_congr rfl fun i _ => ?_
  rw [entry_closeNode]
  by_cases hi : i / 4 = node
  · have hleft : (restarted (m.entry i)).state ≠ .claimed := by
      unfold restarted
      split
      · simp
      · simp_all
    simp [hi, hleft]
  · simp [hi]

/-! ### The accounts, entry by entry -/

/-- The accounts but for the waiting list. -/
structure Accounts (m : Mirror) : Prop where
  balanced : m.Balanced
  pool : m.PoolSound
  numbers : ∀ i n, (m.entry i).number = some n → n ≤ m.highWater ∧ ∀ b ∈ m.pool, n < b.first + b.next
  apart : ∀ i j n, (m.entry i).number = some n → (m.entry j).number = some n → i = j

theorem lt_of_number {i n : Nat} (h : (m.entry i).number = some n) : i < m.roster.length :=
  (entry_mem fun hc => by simp [hc, RosterEntry.absent] at h).1

theorem sound_iff : m.Sound ↔ m.WaitingSound ∧ m.Accounts := by
  constructor
  · rintro ⟨hw, hb, hp, hn, ha⟩
    refine ⟨hw, hb, hp, fun i n h => hn _ (entry_mem fun hc => ?_).2 n h, fun i j n hi hj => ?_⟩
    · simp [hc, RosterEntry.absent] at h
    · exact ha i j n (lt_of_number hi) (lt_of_number hj) hi hj
  · rintro ⟨hw, hb, hp, hn, ha⟩
    refine ⟨hw, hb, hp, fun e he n h => ?_, fun i j n _ _ => ha i j n⟩
    obtain ⟨i, -, rfl⟩ := mem_roster he
    exact hn i n h

/-- No number is issued: the pool stays, an entry keeps its number or loses it, no position joins the waiting list, one that
stays on it stays in SEAL_WAIT, and the balance is kept. -/
structure IssuesNone (m m' : Mirror) : Prop where
  pool : m'.pool = m.pool
  highWater : m'.highWater = m.highWater
  number : ∀ i n, (m'.entry i).number = some n → (m.entry i).number = some n
  sublist : m'.waiting.Sublist m.waiting
  waits : ∀ i ∈ m'.waiting, (m.entry i).state = .sealWait → (m'.entry i).state = .sealWait
  balance : m.Balanced → m'.Balanced

theorem balanced_congr (hi : m'.issued = m.issued) (hs : m'.sealedCount = m.sealedCount)
    (hp : m'.spoiledCount = m.spoiledCount) (hc : ∀ i, (m'.entry i).state = .claimed ↔ (m.entry i).state = .claimed) :
    m.Balanced → m'.Balanced := by
  unfold Balanced
  rw [hi, hs, hp, countOf_congr (by simp) hc]
  exact id

namespace IssuesNone

theorem trans (h : m.IssuesNone m') (h' : m'.IssuesNone m'') : m.IssuesNone m'' where
  pool := h'.pool.trans h.pool
  highWater := h'.highWater.trans h.highWater
  number i n hn := h.number i n (h'.number i n hn)
  sublist := h'.sublist.trans h.sublist
  waits i hi hw := h'.waits i hi (h.waits i (h'.sublist.subset hi) hw)
  balance hb := h'.balance (h.balance hb)

theorem sound (h : m.IssuesNone m') (hm : m.Sound) : m'.Sound := by
  obtain ⟨⟨hnodup, hwait, hempty⟩, hb, ⟨hfour, hmax, hpair, hblocks⟩, hn, ha⟩ := sound_iff.mp hm
  refine sound_iff.mpr ⟨⟨hnodup.sublist h.sublist, fun i hi => h.waits i hi (hwait i (h.sublist.subset hi)), fun hp => ?_⟩,
    h.balance hb, ?_, ?_, fun i j n hi hj => ha i j n (h.number i n hi) (h.number j n hj)⟩
  · rw [h.pool] at hp
    exact List.sublist_nil.mp (hempty hp ▸ h.sublist)
  · unfold PoolSound
    rw [h.pool, h.highWater]
    exact ⟨hfour, hmax, hpair, hblocks⟩
  · rw [h.pool, h.highWater]
    exact fun i n hi => hn i n (h.number i n hi)

/-- Only the header, the phase or the step changes. -/
theorem of_header (hr : m'.roster = m.roster) (hp : m'.pool = m.pool) (hh : m'.highWater = m.highWater)
    (hi : m'.issued = m.issued) (hs : m'.sealedCount = m.sealedCount) (hc : m'.spoiledCount = m.spoiledCount)
    (hw : m'.waiting = m.waiting) : m.IssuesNone m' := by
  have he : ∀ i, m'.entry i = m.entry i := fun i => by simp [entry, hr]
  exact ⟨hp, hh, fun i n => by simp [he], by simp [hw], fun i _ => by simp [he],
    balanced_congr hi hs hc fun i => by simp [he]⟩

theorem endRun (m : Mirror) (c : EndCause) : m.IssuesNone (m.endRun c) := of_header rfl rfl rfl rfl rfl rfl rfl

theorem stepTest (m : Mirror) : m.IssuesNone m.stepTest.1 := by
  rcases m.stepTest_cases with h | h | h | h <;> rw [h]
  · exact of_header rfl rfl rfl rfl rfl rfl rfl
  · exact endRun m _
  · exact of_header rfl rfl rfl rfl rfl rfl rfl
  · refine ⟨rfl, rfl, fun i n => ?_, .refl _, fun i _ => ?_, balanced_congr rfl rfl rfl fun i => ?_⟩ <;>
      rw [entry_lastStepDone] <;> split <;> simp_all

theorem endTest (m : Mirror) : m.IssuesNone m.endTest.1 := by
  rcases m.endTest_cases with h | h <;> rw [h]
  · exact of_header rfl rfl rfl rfl rfl rfl rfl
  · exact endRun m _

/-- Entries change without a number being issued, given up or counted: what moves was not CLAIMED, does not become CLAIMED,
and does not wait. -/
theorem of_entries (hp : m'.pool = m.pool) (hh : m'.highWater = m.highWater) (hi : m'.issued = m.issued)
    (hs : m'.sealedCount = m.sealedCount) (hc : m'.spoiledCount = m.spoiledCount) (hw : m'.waiting.Sublist m.waiting)
    (he : ∀ i, m'.entry i = m.entry i ∨ (m.entry i).state ≠ .claimed ∧ (m'.entry i).state ≠ .claimed ∧
      (∀ n, (m'.entry i).number = some n → (m.entry i).number = some n) ∧
      (i ∈ m'.waiting → (m.entry i).state ≠ .sealWait)) : m.IssuesNone m' := by
  refine ⟨hp, hh, fun i n hn => ?_, hw, fun i hi hwait => ?_, balanced_congr hi hs hc fun i => ?_⟩ <;>
    rcases he i with h | ⟨hold, hnew, hnum, hnot⟩
  · rwa [h] at hn
  · exact hnum n hn
  · rwa [h]
  · exact absurd hwait (hnot hi)
  · rw [h]
  · exact ⟨fun h => absurd h hnew, fun h => absurd h hold⟩

theorem join {sender mask : Byte} {fp : W32} {js : Quad JoinSocket} (h : m.join sender mask fp js = some m') :
    m.IssuesNone m' := by
  have habsent := fun i => absent_of_join (i := i) h
  have hentry := entry_join h
  simp only [Mirror.join, Option.ite_none_right_eq_some, Option.some.injEq] at h
  obtain ⟨-, rfl⟩ := h
  refine of_entries rfl rfl rfl rfl rfl (.refl _) fun i => ?_
  rw [hentry i]
  split
  case _ hi => exact .inr (by simp [habsent i hi.1, RosterEntry.absent])
  case _ => exact .inl rfl

theorem moveOut {i : Nat} (c : OutCause) (hi : (m.entry i).state ≠ .claimed) : m.IssuesNone (m.moveOut i c) := by
  refine of_entries rfl rfl rfl rfl rfl ?_ fun j => ?_
  · unfold Mirror.moveOut
    split
    · exact List.filter_sublist
    · exact .refl _
  · rw [entry_moveOut]
    split
    case _ h =>
      obtain ⟨rfl, -⟩ := h
      refine .inr ⟨hi, by simp, fun n hn => hn, fun hmem hs => ?_⟩
      simp [Mirror.moveOut, hs] at hmem
    case _ => exact .inl rfl

theorem verdictSet {i k : Nat} : m.IssuesNone (m.setEntry i { m.entry i with lastVerdict := some k }) := by
  refine ⟨rfl, rfl, fun j n => ?_, .refl _, fun j _ => ?_, balanced_congr rfl rfl rfl fun j => ?_⟩ <;>
    rw [entry_setEntry] <;> split <;> simp_all

theorem abortedBy (m : Mirror) (oc : OutCause) (ec : EndCause) : m.IssuesNone (m.abortedBy oc ec) := by
  refine of_entries rfl rfl rfl rfl rfl (List.nil_sublist _) fun i => ?_
  rw [entry_abortedBy]
  split
  case _ h =>
    refine .inr ⟨fun hs => ?_, by simp, fun n hn => hn, fun hmem => absurd hmem List.not_mem_nil⟩
    simp [inRun, hs] at h
  case _ => exact .inl rfl

/-- A CLAIMED entry is closed, and its number counted as sealed or as spoiled. -/
theorem closeClaim {i : Nat} {e : RosterEntry} {a b : Nat} (hs : (m.entry i).state = .claimed) (he : e.state ≠ .claimed)
    (hn : e.number = (m.entry i).number) (hab : a + b = 1) : m.IssuesNone
      { m.setEntry i e with sealedCount := m.sealedCount + a, spoiledCount := m.spoiledCount + b } := by
  have hentry := fun j => entry_setEntry m i j e
  refine ⟨rfl, rfl, fun j n h => ?_, .refl _, fun j _ hw => ?_, fun hb => ?_⟩
  · change ((m.setEntry i e).entry j).number = some n at h
    rw [hentry] at h
    split at h
    case _ hj => rw [hj.1, ← hn, h]
    case _ => exact h
  · change ((m.setEntry i e).entry j).state = .sealWait
    rw [hentry, if_neg]
    · exact hw
    · rintro ⟨rfl, -⟩
      simp [hs] at hw
  · have hcount := countOf_setEntry (lt_of_state hs (by simp)) e .claimed
    simp only [hs, he, if_true, if_false] at hcount
    unfold Balanced at hb ⊢
    change m.issued = (m.setEntry i e).countOf .claimed + (m.sealedCount + a) + (m.spoiledCount + b)
    omega

theorem closeNode (m : Mirror) (node : Nat) : m.IssuesNone (m.closeNode node) := by
  refine ⟨rfl, rfl, fun i n => ?_, List.filter_sublist, fun i hi hw => ?_, fun hb => ?_⟩
  · rw [entry_closeNode]
    split
    · unfold restarted
      split <;> simp
    · exact id
  · rw [entry_closeNode, if_neg]
    · exact hw
    · simpa using (List.mem_filter.mp hi).2
  · have hcount := m.countOf_closeNode node
    unfold Balanced at hb ⊢
    change m.issued = (m.closeNode node).countOf .claimed + m.sealedCount + (m.spoiledCount + m.claimsOf node)
    omega

end IssuesNone

/-! ### Numbers issued (R11, R14, R30) -/

/-- The blocks left when the head block's next number is taken. -/
theorem mem_pool_assign {b c : PoolBlock} {bs : List PoolBlock}
    (hb : b.next < b.count) (h : c ∈ if b.next + 1 = b.count then bs else { b with next := b.next + 1 } :: bs) :
    c ∈ bs ∨ c = { b with next := b.next + 1 } ∧ b.next + 1 < b.count := by
  split at h
  case _ => exact .inl h
  case _ hne =>
    rcases List.mem_cons.mp h with h | h
    · exact .inr ⟨h, by omega⟩
    · exact .inl h

theorem PoolSound.assign {b : PoolBlock} {bs : List PoolBlock} (hp : m.pool = b :: bs) (h : m.PoolSound) (i : Nat) :
    (m.assign i).1.PoolSound := by
  obtain ⟨hfour, hmax, hpair, hblocks⟩ := h
  rw [hp] at hfour hpair hblocks
  obtain ⟨hhead, hpair⟩ := List.pairwise_cons.mp hpair
  obtain ⟨hb1, hb2, hb3, hb4⟩ := hblocks b (by simp)
  rw [assign_cons hp]
  refine ⟨?_, hmax, ?_, fun c hc => ?_⟩
  · dsimp only
    split <;> simp at hfour ⊢ <;> omega
  · dsimp only
    split
    · exact hpair
    · exact List.pairwise_cons.mpr ⟨hhead, hpair⟩
  · rcases mem_pool_assign hb3 hc with hc | ⟨rfl, hlt⟩
    · exact hblocks c (by simp [hc])
    · exact ⟨hb1, hb2, hlt, hb4⟩

/-- The number taken lies below every number the pool still holds, and above every number taken before. -/
theorem Accounts.assign {b : PoolBlock} {bs : List PoolBlock} (hp : m.pool = b :: bs) (h : m.Accounts) {i : Nat}
    (hi : i < m.roster.length) (hs : (m.entry i).state ≠ .claimed) : (m.assign i).1.Accounts := by
  obtain ⟨hbal, hpool, hnum, hapart⟩ := h
  have hentry := entry_assign hp i
  have hsound := hpool.assign hp i
  obtain ⟨-, hmax, hpair, hblocks⟩ := hpool
  rw [hp] at hpair hblocks hnum
  obtain ⟨hhead, -⟩ := List.pairwise_cons.mp hpair
  obtain ⟨hb1, hb2, hb3, hb4⟩ := hblocks b (by simp)
  have hfresh : ∀ j, (m.entry j).number ≠ some (b.first + b.next) := fun j hj => by
    have := (hnum j _ hj).2 b (by simp)
    omega
  refine ⟨?_, hsound, fun j n hj => ?_, fun j k n hj hk => ?_⟩
  · rw [assign_cons hp]
    unfold Balanced at hbal ⊢
    change m.issued + 1 = (m.setEntry i _).countOf .claimed + m.sealedCount + m.spoiledCount
    rw [countOf_claimed hi hs rfl]
    omega
  · have hbelow : n ≤ m.highWater ∧ n < b.first + (b.next + 1) ∧ ∀ c ∈ bs, n < c.first + c.next := by
      rw [hentry] at hj
      split at hj
      · obtain rfl : b.first + b.next = n := by simpa using hj
        refine ⟨by omega, by omega, fun c hc => ?_⟩
        have := hhead c hc
        omega
      · obtain ⟨hle, hlt⟩ := hnum j n hj
        have := hlt b (by simp)
        exact ⟨hle, by omega, fun c hc => hlt c (by simp [hc])⟩
    obtain ⟨hle, hlt, hrest⟩ := hbelow
    rw [assign_cons hp]
    refine ⟨hle, fun c hc => ?_⟩
    rcases mem_pool_assign hb3 hc with hc | ⟨rfl, -⟩
    · exact hrest c hc
    · exact hlt
  · rw [hentry] at hj hk
    split at hj <;> split at hk
    case _ h1 h2 => exact h1.1.trans h2.1.symm
    case _ => exact absurd (hk.trans hj.symm) (hfresh k)
    case _ => exact absurd (hj.trans hk.symm) (hfresh j)
    case _ => exact hapart j k n hj hk

theorem Accounts.of_waiting (h : m.Accounts) (l : List Nat) : ({ m with waiting := l } : Mirror).Accounts :=
  ⟨h.balanced, h.pool, h.numbers, h.apart⟩

/-- Serving waiting claims keeps the accounts and leaves a sound waiting list (R13, R14). -/
theorem sound_serve {l : List Nat} (h : m.Accounts) (hn : l.Nodup) (hl : ∀ i ∈ l, (m.entry i).state = .sealWait) :
    (serve l m).1.Sound := by
  induction l generalizing m with
  | nil => exact sound_iff.mpr ⟨⟨.nil, by simp [serve], fun _ => rfl⟩, h.of_waiting []⟩
  | cons i is ih =>
    cases hp : m.pool with
    | nil =>
      rw [serve_nil_pool _ _ hp]
      exact sound_iff.mpr ⟨⟨hn, hl, fun hne => absurd hp hne⟩, h.of_waiting _⟩
    | cons b bs =>
      obtain ⟨hi, hn⟩ := List.nodup_cons.mp hn
      have hwait := hl i (by simp)
      rw [serve_cons hp]
      refine ih (h.assign hp (lt_of_state hwait (by simp)) (by simp [hwait])) hn fun j hj => ?_
      rw [entry_assign hp, if_neg (by rintro ⟨rfl, -⟩; exact hi hj)]
      exact hl j (by simp [hj])

/-- An accepted block lies above all the others (R29). -/
theorem Accounts.withBlock {f c : Nat} (h : m.Accounts) (ha : m.extendAccepted f c = true) (hc : c ≤ 65535) :
    (m.withBlock f c).Accounts := by
  obtain ⟨-, hlen, hhigh, hpos, hlast⟩ := extendAccepted_iff.mp ha
  obtain ⟨hbal, ⟨hfour, hmax, hpair, hblocks⟩, hnum, hapart⟩ := h
  refine ⟨hbal, ⟨?_, hlast, ?_, fun b hb => ?_⟩, fun i n hn => ?_, hapart⟩
  · simp only [Mirror.withBlock, List.length_append, List.length_singleton]
    omega
  · refine List.pairwise_append.mpr ⟨hpair, List.pairwise_singleton _ _, fun a ha b hb => ?_⟩
    obtain rfl := List.mem_singleton.mp hb
    have := (hblocks a ha).2.2.2
    dsimp only
    omega
  · rcases List.mem_append.mp hb with hb | hb
    · obtain ⟨h1, h2, h3, h4⟩ := hblocks b hb
      exact ⟨h1, h2, h3, h4.trans (by simp only [Mirror.withBlock]; omega)⟩
    · obtain rfl := List.mem_singleton.mp hb
      exact ⟨by dsimp only; omega, hc, hpos, by simp only [Mirror.withBlock]; omega⟩
  · obtain ⟨hle, hlt⟩ := hnum i n hn
    refine ⟨by simp only [Mirror.withBlock]; omega, fun b hb => ?_⟩
    rcases List.mem_append.mp hb with hb | hb
    · exact hlt b hb
    · obtain rfl := List.mem_singleton.mp hb
      dsimp only
      omega

/-- A claim of a DONE entry joins the waiting list while the pool is empty (R30). -/
theorem sound_wait {i : Nat} (h : m.Sound) (hs : (m.entry i).state = .done) (hp : m.pool = []) :
    ({ m.setEntry i { m.entry i with state := .sealWait } with waiting := m.waiting ++ [i] } : Mirror).Sound := by
  obtain ⟨⟨hnodup, hwait, -⟩, hacc⟩ := sound_iff.mp h
  have hi := lt_of_state hs (by simp)
  have hentry := fun j => entry_setEntry m i j { m.entry i with state := .sealWait }
  have hnot : i ∉ m.waiting := fun hc => by simp [hwait i hc] at hs
  have hnone : m.IssuesNone (m.setEntry i { m.entry i with state := .sealWait }) := by
    refine .of_entries rfl rfl rfl rfl rfl (.refl _) fun j => ?_
    rw [hentry]
    split
    case _ hj => rw [hj.1]; exact .inr (by simp [hs])
    case _ => exact .inl rfl
  refine sound_iff.mpr ⟨⟨?_, fun j hj => ?_, fun hne => absurd hp hne⟩,
    (sound_iff.mp (hnone.sound h)).2.of_waiting _⟩
  · exact List.nodup_append.mpr ⟨hnodup, List.nodup_singleton i, by simpa using fun a ha (he : a = i) => hnot (he ▸ ha)⟩
  · change ((m.setEntry i _).entry j).state = .sealWait
    rw [hentry]
    split
    · rfl
    case _ hne =>
      rcases List.mem_append.mp hj with hj | hj
      · exact hwait j hj
      · exact absurd ⟨List.mem_singleton.mp hj, hi⟩ hne

/-! ### A new roster -/

/-- A mirror that has issued no number is sound when its pool is. -/
theorem sound_of_blank {k : Nat} (hr : m.roster = List.replicate k .absent) (hw : m.waiting = [])
    (hi : m.issued = 0) (hs : m.sealedCount = 0) (hc : m.spoiledCount = 0) (hp : m.PoolSound) : m.Sound := by
  have hentry : ∀ i, m.entry i = .absent := fun i => by
    by_cases h : i < k <;> simp [entry, hr, h]
  refine sound_iff.mpr ⟨⟨by simp [hw], by simp [hw], fun _ => hw⟩, ?_, hp, fun i n h => ?_, fun i j n h => ?_⟩
  · simp [Balanced, countOf, hr, hi, hs, hc, List.countP_replicate, RosterEntry.absent]
  · simp [hentry, RosterEntry.absent] at h
  · simp [hentry, RosterEntry.absent] at h

theorem openPool_empty {first count : Nat} (h : count = 0 ∨ first = 0 ∨ 4294967295 < first + count - 1) :
    openPool first count = ([], 0) := if_pos h

theorem openPool_one {first count : Nat} (h : ¬ (count = 0 ∨ first = 0 ∨ 4294967295 < first + count - 1)) :
    openPool first count = ([{ first := first, count := count, next := 0 }], first + count - 1) := if_neg h

/-- The pool a RUN_OPEN opens is empty, or one block that fits (R18). -/
theorem sound_openRun {run : Byte} {slot : Fin 2} {fp : W32} {first count steps : Nat} (hc : count ≤ 65535) :
    (m.openRun run slot fp first count steps).Sound := by
  refine sound_of_blank rfl rfl rfl rfl rfl ?_
  by_cases h : count = 0 ∨ first = 0 ∨ 4294967295 < first + count - 1
  · simp [PoolSound, openRun, openPool_empty h]
  · have hone := openPool_one h
    simp only [not_or, not_lt] at h
    obtain ⟨h1, h2, h3⟩ := h
    simp [PoolSound, openRun, hone]
    omega

theorem sound_reset : Mirror.reset.Sound :=
  sound_of_blank rfl rfl rfl rfl rfl (by simp [PoolSound, Mirror.reset])

/-! ### Every effect -/

theorem effect_sound (hm : m.Sound) (h : m.Effect m') : m'.Sound := by
  cases h with
  | stays => exact hm
  | joined h => exact (IssuesNone.join h).sound hm
  | loadSet h =>
    rcases loadSet_cases h with rfl | rfl | rfl
    · have hbegun : m.IssuesNone m.stepBegun := .of_header rfl rfl rfl rfl rfl rfl rfl
      exact (hbegun.trans (.stepTest _)).sound hm
    · exact (IssuesNone.endRun m _).sound hm
    · have hnext : ∀ k, m.IssuesNone { m with step := some k, stepComplete := false } := fun _ =>
        .of_header rfl rfl rfl rfl rfl rfl rfl
      exact (hnext _).sound hm
  | verdict h =>
    obtain ⟨hactive, rfl | rfl⟩ := verdict_cases h
    · exact ((IssuesNone.moveOut _ (by simp [hactive])).trans (.stepTest _)).sound hm
    · exact (IssuesNone.verdictSet.trans (.stepTest _)).sound hm
  | @bypass i c _ _ h =>
    obtain ⟨hin, h⟩ := bypass_cases h
    have hmove : m.IssuesNone (m.moveOut i c) := .moveOut c fun hs => by simp [inRun, hs] at hin
    obtain rfl | rfl := h
    · exact (hmove.trans (.stepTest _)).sound hm
    · exact hmove.sound hm
  | paused h =>
    rw [pause_some h]
    exact hm
  | resumed h =>
    rw [resume_some h]
    exact hm
  | aborted h =>
    rw [abort_some h]
    exact (IssuesNone.abortedBy m _ _).sound hm
  | extended hc h =>
    obtain ⟨hacc, rfl⟩ := poolExtend_some h
    obtain ⟨⟨hnodup, hwait, -⟩, haccounts⟩ := sound_iff.mp hm
    exact sound_serve (haccounts.withBlock hacc hc) hnodup hwait
  | claimed i =>
    rcases m.sealClaim_cases i with h | ⟨hs, ⟨hp, h⟩ | ⟨b, bs, hp, h⟩⟩ <;> rw [h]
    · exact hm
    · exact sound_wait hm hs hp
    · obtain ⟨⟨-, -, hempty⟩, hacc⟩ := sound_iff.mp hm
      have hnil : (m.assign i).1.waiting = [] := by
        rw [assign_cons hp]
        exact hempty (by simp [hp])
      exact sound_iff.mpr ⟨⟨by simp [hnil], by simp [hnil], fun _ => hnil⟩,
        hacc.assign hp (lt_of_state hs (by simp)) (by simp [hs])⟩
  | sealDone i n =>
    rcases m.sealDone_cases i n with h | ⟨hs, -, h⟩ <;> rw [h]
    · exact hm
    · exact (IssuesNone.closeClaim (e := { m.entry i with state := .sealed }) (a := 1) (b := 0) hs (by simp) rfl rfl).sound hm
  | spoiled i n =>
    rcases m.sealSpoil_cases i n with h | ⟨hs, -, h⟩ <;> rw [h]
    · exact hm
    · exact (IssuesNone.closeClaim (e := { m.entry i with state := .out, out := some .sealSpoiled }) (a := 0) (b := 1) hs
        (by simp) rfl rfl).sound hm
  | announced sender =>
    rw [announce_eq]
    split
    · exact ((IssuesNone.closeNode m _).trans (.stepTest _)).sound hm
    · exact (IssuesNone.closeNode m _).sound hm

end Mirror

/-- Settles O58: power-on reset and an opened run begin sound accounts, and every other step is an entry's effect and the end
test, or leaves the mirror. -/
theorem sealAccountsKept : Obligations.SealAccountsKept := by
  intro s t hs h
  rcases step_mirror h with h | ⟨run, slot, fp, first, count, steps, hc, h⟩ | h | ⟨m, he, h⟩ <;> rw [h]
  · exact Mirror.sound_reset
  · exact Mirror.sound_openRun hc
  · exact hs
  · exact (Mirror.IssuesNone.endTest m).sound (Mirror.effect_sound hs he)

end Sys2Proof.Machine
end

section
/-! PROOFS. Taking an entry, seen from the command: what each TAKE command does once its entry is the head, and what the end
test and the step-completion test then leave (R7 to R9, R15, R34). -/

namespace Sys2Proof.Machine

/-! ### From the station to the command -/

section Commands

variable {c : Instr} {s : State} {f g : Station → Station} {rest : List Entry}

theorem answers_of_run {st : Station} (he : exec c s = s.run f) (ha : s.Awake) (hf : f s.st = st) {P : State → Prop}
    (hP : P { s with st := st }) : Answers c s P :=
  ⟨{ s with st := st }, by rw [he, State.run_awake ha, State.upd, hf], hP⟩

theorem next_of_run (he : exec c s = s.run f) (ha : s.Awake) (hfg : f s.st = g s.st) : exec c s = .next (s.upd g) := by
  rw [he, State.run_awake ha, State.upd_eq hfg]

theorem ignores_of_run (he : exec c s = s.run f) (ha : s.Awake)
    (hf : f s.st = { s.st with lkc := { s.st.lkc with inbound := rest } }) : s.Ignores c rest :=
  next_of_run he ha hf

/-- A run frame of the station's run that its own checks ignore. -/
theorem ignores_of_none {run : Byte} {fx : Mirror → Option (Mirror × List Notice)} (he : exec c s = s.run f) (ha : s.Awake)
    (hf : f s.st = s.st.takeRunFrame rest run fx) (hcur : s.Current run) (hd : ¬ s.st.bmr.EndDue)
    (hfx : fx s.st.bmr = none) : s.Ignores c rest :=
  ignores_of_run he ha (hf.trans (Station.takeRunFrame_leaves hcur hd rest hfx))

end Commands

/-! ### The head of the queue, kind by kind -/

namespace Station

variable {st : Station} {f : Frame} {own : Bool} {rest : List Entry}

theorem takeLoadSet_head {k lp : Byte} (h : st.lkc.inbound = .frame f own :: rest) (hb : f.body = .loadSet k lp) :
    st.takeLoadSet = st.takeRunFrame rest f.run fun m => if k.toNat ≤ 23 then m.loadSet k.toNat else none :=
  takeHead_frame h (by rw [hb])

theorem takeVerdict_head {sk k v c att adj : Byte} {mean spread : W32} (h : st.lkc.inbound = .frame f own :: rest)
    (hb : f.body = .verdict sk k v c mean spread att adj) :
    st.takeVerdict = st.takeRunFrame rest f.run fun m =>
      match socketOf sk with
      | some x => if k.toNat ≤ 23 ∧ v.toNat ≤ 1 then m.verdict (rosterPos f.sender x) k.toNat (v.toNat == 1) else none
      | none => none :=
  (takeHead_frame h (by rw [hb])).trans rfl

theorem takeBypass_head {sk c k : Byte} (h : st.lkc.inbound = .frame f own :: rest) (hb : f.body = .bypass sk c k) :
    st.takeBypass = st.takeRunFrame rest f.run fun m =>
      match socketOf sk, bypassCause c with
      | some x, some cause => m.bypass (rosterPos f.sender x) cause
      | _, _ => none :=
  (takeHead_frame h (by rw [hb])).trans rfl

theorem takeShed_head {l : Byte} (h : st.lkc.inbound = .frame f own :: rest) (hb : f.body = .shed l) :
    st.takeShed = st.takeRunFrame rest f.run fun m => if l.toNat ≤ 7 then m.shed l.toNat else none :=
  takeHead_frame h (by rw [hb])

theorem takePause_head (h : st.lkc.inbound = .frame f own :: rest) (hb : f.body = .pause) :
    st.takePause = st.takeRunFrame rest f.run Mirror.pause :=
  takeHead_frame h (by rw [hb])

theorem takeResume_head (h : st.lkc.inbound = .frame f own :: rest) (hb : f.body = .resume) :
    st.takeResume = st.takeRunFrame rest f.run Mirror.resume :=
  takeHead_frame h (by rw [hb])

theorem takeRunAbort_head (h : st.lkc.inbound = .frame f own :: rest) (hb : f.body = .runAbort) :
    st.takeRunAbort = st.takeRunFrame rest f.run fun m => m.abort .aborted .aborted :=
  takeHead_frame h (by rw [hb])

theorem takeSealDone_head {sk : Byte} {n : W32} {d : W16} (h : st.lkc.inbound = .frame f own :: rest)
    (hb : f.body = .sealDone sk n d) :
    st.takeSealDone = st.takeRunFrame rest f.run fun m =>
      match socketOf sk with
      | some x => if n = 0 then none else some (m.sealDone (rosterPos f.sender x) n.toNat)
      | none => none :=
  (takeHead_frame h (by rw [hb])).trans rfl

theorem takeSealSpoil_head {sk c : Byte} {n : W32} (h : st.lkc.inbound = .frame f own :: rest)
    (hb : f.body = .sealSpoil sk n c) :
    st.takeSealSpoil = st.takeRunFrame rest f.run fun m =>
      match socketOf sk with
      | some x => if n = 0 ∨ c ∉ spoilCodes then none else some (m.sealSpoil (rosterPos f.sender x) n.toNat)
      | none => none :=
  (takeHead_frame h (by rw [hb])).trans rfl

/-! ### Taken, with no phase change -/

/-- An applied run frame that leaves the end test nothing to do gives its notices. -/
theorem takeRunFrame_gives {run : Byte} {fx : Mirror → Option (Mirror × List Notice)} {m : Mirror} {ns : List Notice}
    (hcur : run ≠ 0 ∧ run = st.bmr.runNo) (hf : fx st.bmr = some (m, ns)) (hd : ¬ m.EndDue) :
    st.takeRunFrame rest run fx = ({ st with lkc := { st.lkc with inbound := rest }, bmr := m } : Station).giveAll ns := by
  rw [takeRunFrame_current hcur rest hf, finishTake_notDue hd, List.append_nil]

theorem finishTake_quiet {m : Mirror} (h : ¬ m.EndDue) :
    st.finishTake rest m [] [] = { st with lkc := { st.lkc with inbound := rest }, bmr := m } :=
  finishTake_notDue h rest [] []

end Station

/-! ### The end test and the step-completion test -/

namespace Mirror

variable {m : Mirror}

theorem notDue_of_notOpen (h : m.phase.isOpen = false) : ¬ m.EndDue := fun hd => by
  simp [hd.1, Phase.isOpen] at h

theorem notDue_of_has {x : EntryState} (hx : x = .done ∨ x = .sealWait ∨ x = .claimed) (h : m.has x = true) :
    ¬ m.EndDue := fun hd => by
  have hsettled := hd.2
  rcases hx with rfl | rfl | rfl <;> simp [settled, h] at hsettled

/-- An entry in a state, found at its index. -/
theorem has_of_entry {x : EntryState} {i : Nat} (h : (m.entry i).state = x) (hx : x ≠ .absent) : m.has x = true :=
  has_true.mpr ⟨_, (entry_mem_of_state h hx).2, h⟩

theorem allPassed_iff {k : Nat} (hs : m.step = some k) :
    m.allPassed = true ↔ ∀ e ∈ m.roster, e.state = .active → e.lastVerdict = some k := by
  simp [allPassed, hs, imp_iff_not_or]

section StepTest

variable {k : Nat} (hp : m.phase = .stepping) (hs : m.step = some k)

include hp hs

theorem stepTest_noneLeft (h : m.has .active = false) : m.stepTest = (m.endRun .noneLeft, [.ended .noneLeft]) := by
  simp [stepTest, hp, hs, h]

theorem stepTest_goesOn (ha : m.has .active = true) (h : m.stepComplete = true ∨ ¬ m.allPassed = true) :
    m.stepTest = (m, []) := by
  rcases h with h | h <;> simp [stepTest, hp, hs, ha, h]

theorem stepTest_completes (ha : m.has .active = true) (hc : m.stepComplete = false) (h : m.allPassed = true) :
    m.stepTest = m.completeStep k := by
  simp [stepTest, hp, hs, ha, hc, h]

end StepTest

/-- After the last step the DONE entries wait for sealing, so the end test does nothing. -/
theorem lastStepDone_notDue (ha : m.has .active = true) : ¬ m.lastStepDone.EndDue := by
  obtain ⟨e, he, hactive⟩ := has_true.mp ha
  obtain ⟨i, -, rfl⟩ := mem_roster he
  exact notDue_of_has (.inl rfl) (has_of_entry (i := i) (by rw [entry_lastStepDone, if_pos hactive]) (by simp))

end Mirror

section Tests

variable {s : State} {rest : List Entry} {m : Mirror}

/-- With no notice of its own before it, the end test alone decides what is left. -/
theorem endTested (s : State) (rest : List Entry) (m : Mirror) :
    s.EndTested (s.upd fun st => st.finishTake rest m [] []) rest m := by
  refine ⟨fun h => ?_, fun hp hs => ?_⟩
  · refine Station.finishTake_quiet fun hd => ?_
    rcases h with h | h
    · exact h hd.1
    · simp [hd.2] at h
  · exact Station.finishTake_due ⟨hp, hs⟩ rest [] []

/-- The step-completion test after an effect whose own notices `pre` tell the STC `first`. -/
theorem stepTested {k : Nat} (hp : m.phase = .stepping) (hs : m.step = some k) {pre : List Notice} {first : List StcMsg}
    (hpre : ∀ st : Station, st.giveAll pre = { st with stc := { st.stc with inbox := st.stc.inbox ++ first } }) :
    s.StepTested (s.upd fun st => st.finishTake rest m.stepTest.1 (pre ++ m.stepTest.2) []) rest m k first := by
  simp only [State.StepTested, ← Mirror.has_true, ← Mirror.allPassed_iff hs, Bool.not_eq_true, State.upd_st]
  refine ⟨fun ha => ?_, fun ha hon => ?_, fun ha hc hall => ⟨fun hlast => ?_, fun hlast => ?_⟩⟩
  · rw [Mirror.stepTest_noneLeft hp hs ha, Station.finishTake_notDue (Mirror.notDue_of_phase (by simp [Mirror.endRun]))]
    simp only [List.append_nil, Station.giveAll_append, hpre]
    rfl
  · rw [Mirror.stepTest_goesOn hp hs ha (by simpa using hon),
      Station.finishTake_notDue (Mirror.notDue_of_phase (by simp [hp]))]
    simp only [List.append_nil, hpre]
  · rw [Mirror.stepTest_completes hp hs ha hc hall, Mirror.completeStep_notLast hlast,
      Station.finishTake_notDue (Mirror.notDue_of_phase (by simp [hp]))]
    simp only [List.append_nil, Station.giveAll_append, hpre]
    rfl
  · rw [Mirror.stepTest_completes hp hs ha hc hall, Mirror.completeStep_last hlast,
      Station.finishTake_notDue (Mirror.lastStepDone_notDue ha)]
    simp only [List.append_nil, Station.giveAll_append, hpre]
    rfl

theorem giveAll_none (st : Station) :
    st.giveAll [] = { st with stc := { st.stc with inbox := st.stc.inbox ++ [] } } := by
  simp

theorem giveAll_disturbance (st : Station) :
    st.giveAll [.disturbance] = { st with stc := { st.stc with inbox := st.stc.inbox ++ [.disturbance] } } := rfl

end Tests

/-! ### SHED, PAUSE, RESUME (R24, R25) -/

/-- Settles O24: each check of R24 and R25 that fails makes the frame's effect none, and each that passes gives its notices. -/
theorem shedPauseResumeGiveNotices : Obligations.ShedPauseResumeGiveNotices := by
  intro s f own rest ha hh hcur
  refine ⟨fun l hb hl hp => ?_, fun hb hopen hd hpaused => ?_, fun hb hopen hd hpaused => ?_, fun hd =>
    ⟨fun l hb hno => ?_, fun hb hno => ?_, fun hb hno => ?_⟩⟩
  · refine next_of_run rfl ha ((Station.takeShed_head hh hb).trans (Station.takeRunFrame_gives hcur (m := s.st.bmr)
      (ns := [.disturbance, .shed l.toNat]) ?_ (Mirror.notDue_of_phase (by simp [hp]))))
    simp [hl, Mirror.shed, hp]
  · refine next_of_run rfl ha ((Station.takePause_head hh hb).trans (Station.takeRunFrame_gives hcur
      (m := { s.st.bmr with paused := true }) (ns := [.paused]) ?_ hd))
    simp [Mirror.pause, hopen, hpaused]
  · refine next_of_run rfl ha ((Station.takeResume_head hh hb).trans (Station.takeRunFrame_gives hcur
      (m := { s.st.bmr with paused := false }) (ns := [.resumed]) ?_ hd))
    simp [Mirror.resume, hopen, hpaused]
  · refine ignores_of_none rfl ha (Station.takeShed_head hh hb) hcur hd ?_
    rcases hno with hno | hno
    · exact if_neg (by omega)
    · simp [Mirror.shed, hno]
  · refine ignores_of_none rfl ha (Station.takePause_head hh hb) hcur hd ?_
    rcases hno with hno | hno <;> simp [Mirror.pause, hno]
  · refine ignores_of_none rfl ha (Station.takeResume_head hh hb) hcur hd ?_
    rcases hno with hno | hno <;> simp [Mirror.resume, hno]

/-! ### RUN_ABORT and the bench-fault marker (R26, R27) -/

/-- What an ended open run leaves, whichever of the two ended it. -/
theorem endedBy_abortedBy (s : State) (rest : List Entry) (oc : OutCause) (ec : EndCause) :
    s.EndedBy (s.upd fun st => st.finishTake rest (st.bmr.abortedBy oc ec) [.ended ec] []) rest oc ec := by
  have hst : s.st.finishTake rest (s.st.bmr.abortedBy oc ec) [.ended ec] [] =
      ({ s.st with lkc := { s.st.lkc with inbound := rest }, bmr := s.st.bmr.abortedBy oc ec } : Station).give (.ended ec) :=
    Station.finishTake_notDue (Mirror.notDue_of_phase (by simp [Mirror.abortedBy, Mirror.endRun])) rest _ _
  simp only [State.EndedBy, State.upd_st, hst]
  refine ⟨rfl, fun i => ⟨fun h => ?_, fun h => ?_⟩⟩
  · exact (Mirror.entry_abortedBy oc ec i).trans (if_pos h)
  · exact (Mirror.entry_abortedBy oc ec i).trans (if_neg (by rw [show Mirror.inRun _ = false from h]; simp))

/-- Settles O25: both are one effect on the mirror, with their own causes. -/
theorem abortAndFaultEndTheRun : Obligations.AbortAndFaultEndTheRun := by
  refine ⟨fun s f own rest ha hh hcur hb => ⟨fun hopen => ?_, fun hopen => ?_⟩, fun s rest ha hh => ⟨fun hopen => ?_,
    fun hopen => ?_⟩⟩
  · refine answers_of_run rfl ha ?_ (endedBy_abortedBy s rest .aborted .aborted)
    rw [Station.takeRunAbort_head hh hb, Station.takeRunFrame_current hcur rest (Mirror.abort_open hopen)]
  · exact ignores_of_none rfl ha (Station.takeRunAbort_head hh hb) hcur (Mirror.notDue_of_notOpen hopen)
      (Mirror.abort_notOpen hopen)
  · refine answers_of_run rfl ha ?_ (endedBy_abortedBy s rest .fault .fault)
    simp [Station.takeBenchFault, hh, Mirror.abort_open hopen]
  · refine ignores_of_run rfl ha ?_
    simp only [Station.takeBenchFault, hh, Mirror.abort_notOpen hopen]
    exact Station.finishTake_quiet (Mirror.notDue_of_notOpen hopen)

end Sys2Proof.Machine
end

section
/-! PROOFS. The frames that open a run, join it and step it, and those the mirror does not act on (R17 to R23, R32, R33). -/

namespace Sys2Proof.Machine

/-! ### Sockets, one by one -/

theorem all_sockets (p : Socket → Bool) : [0, 1, 2, 3].all p = true ↔ ∀ x, p x = true := by
  simp [Fin.forall_fin_succ]

theorem any_sockets (p : Socket → Bool) : [0, 1, 2, 3].any p = true ↔ ∃ x, p x = true := by
  simp [Fin.exists_fin_succ]

theorem socketOf_none {b : Byte} (h : 3 < b.toNat) : socketOf b = none := dif_neg (by omega)

theorem toNat_ofNat_step {k : Nat} (h : k ≤ 23) : (BitVec.ofNat 8 k).toNat = k := by
  simp
  omega

/-! ### RUN_OPEN (R17, R18) -/

namespace Station

variable {st : Station} {f : Frame} {own : Bool} {rest : List Entry}

theorem takeRunOpen_refused {slot : Byte} {fp first : W32} {count : W16} {n : Nat}
    (h : st.lkc.inbound = .frame f own :: rest) (hb : f.body = .runOpen slot fp first count)
    (hr : st.runOpenRefusal f.run slot fp = some n) :
    st.takeRunOpen = st.finishTake rest st.bmr (if n = 4 then [.tableRefusal f.run fp] else []) [] := by
  unfold takeRunOpen
  rw [takeHead_frame h (b := (slot, fp, first, count)) (by rw [hb])]
  simp only [hr]

theorem takeRunOpen_accepted {slot : Byte} {sl : Fin 2} {fp first : W32} {count : W16} {tb : RunTable}
    (h : st.lkc.inbound = .frame f own :: rest) (hb : f.body = .runOpen slot fp first count)
    (hr : st.runOpenRefusal f.run slot fp = none) (hs : slotOf slot = some sl) (ht : st.table sl = some tb) :
    st.takeRunOpen =
      st.finishTake rest (st.bmr.openRun f.run sl fp first.toNat count.toNat tb.steps.length) [.runOpened] [] := by
  unfold takeRunOpen
  rw [takeHead_frame h (b := (slot, fp, first, count)) (by rw [hb])]
  simp only [hr, hs, ht]

theorem slotOf_le {b : Byte} {x : Fin 2} (h : slotOf b = some x) : b.toNat ≤ 1 := by
  revert b x
  decide

/-- A run stands open, or has ended with a claim open (R17 check 3). -/
def Busy (st : Station) : Prop := st.bmr.phase.isOpen = true ∨ (st.bmr.phase = .ended ∧ ∃ e ∈ st.bmr.roster, e.state = .claimed)

theorem runOpenRefusal_accepts {run : Byte} {sl : Fin 2} {fp : W32} {tb : RunTable} (hr : run ≠ 0) (hb : ¬ st.Busy)
    (ht : st.table sl = some tb) (hf : tb.fingerprint = fp) : st.runOpenRefusal run (BitVec.ofNat 8 sl.val) fp = none := by
  rw [Busy, ← Mirror.has_true] at hb
  simp only [runOpenRefusal, hr, if_false, slotOf_ofNat, hb, ht, hf, if_true]

theorem runOpenRefusal_table {run : Byte} {sl : Fin 2} {fp : W32} (hr : run ≠ 0) (hb : ¬ st.Busy)
    (ht : ∀ tb, st.table sl = some tb → tb.fingerprint ≠ fp) :
    st.runOpenRefusal run (BitVec.ofNat 8 sl.val) fp = some 4 := by
  rw [Busy, ← Mirror.has_true] at hb
  cases hs : st.table sl with
  | none => simp only [runOpenRefusal, hr, if_false, slotOf_ofNat, hb, hs]
  | some tb => simp only [runOpenRefusal, hr, if_false, slotOf_ofNat, hb, hs, ht tb hs]

/-- The first three checks of R17 refuse without a notice. -/
theorem runOpenRefusal_early {run slot : Byte} {fp : W32} (h : run = 0 ∨ 1 < slot.toNat ∨ st.Busy) :
    ∃ n, n ≠ 4 ∧ st.runOpenRefusal run slot fp = some n := by
  rw [Busy, ← Mirror.has_true] at h
  unfold runOpenRefusal
  by_cases hr : run = 0
  · exact ⟨1, by decide, if_pos hr⟩
  · rw [if_neg hr]
    cases hs : slotOf slot with
    | none => exact ⟨2, by decide, rfl⟩
    | some sl =>
      have hle := slotOf_le hs
      exact ⟨3, by decide, if_pos ((h.resolve_left hr).resolve_left (by omega))⟩

end Station

/-- Settles O19: the checks of R17 in order, and what an accepted RUN_OPEN writes. -/
theorem runOpenStartsTheRunOrIsRefused : Obligations.RunOpenStartsTheRunOrIsRefused := by
  refine ⟨fun s f own rest sl fp first count tb ha hh hb hrun hphase htable hfp => ?_,
    fun s f own rest slot fp first count ha hh hb hd => ?_⟩
  · have hfree : ¬ s.st.Busy := by
      rintro (hopen | ⟨hended, e, he, hc⟩)
      · rcases hphase with hp | ⟨hp, -⟩ <;> simp [hp, Phase.isOpen] at hopen
      · rcases hphase with hp | ⟨-, hnone⟩
        · simp [hp] at hended
        · exact hnone e he hc
    have haccepted := Station.takeRunOpen_accepted hh hb
      (Station.runOpenRefusal_accepts hrun hfree htable hfp) (slotOf_ofNat sl) htable
    rw [Station.finishTake_notDue (Mirror.notDue_of_phase (by simp [Mirror.openRun]))] at haccepted
    refine answers_of_run rfl ha haccepted ⟨rfl, fun hno => ?_, fun hfit => ?_⟩
    all_goals simp only [Station.giveAll_bmr, Mirror.openRun]
    · rw [Mirror.openPool_empty]
      · exact ⟨rfl, rfl⟩
      · rcases hno with rfl | rfl | hno
        · exact .inl rfl
        · exact .inr (.inl rfl)
        · exact .inr (.inr hno)
    · obtain ⟨hcount, hfirst, hlast⟩ := hfit
      have hcount : count.toNat ≠ 0 := fun h => hcount (BitVec.eq_of_toNat_eq h)
      have hfirst : first.toNat ≠ 0 := fun h => hfirst (BitVec.eq_of_toNat_eq h)
      rw [Mirror.openPool_one (by omega)]
      exact ⟨rfl, rfl⟩
  · have hearly : f.run = 0 ∨ 1 < slot.toNat ∨ s.st.Busy → s.Ignores .takeRunOpen rest := fun h => by
      obtain ⟨n, hn, hr⟩ := Station.runOpenRefusal_early (fp := fp) h
      refine ignores_of_run rfl ha ((Station.takeRunOpen_refused hh hb hr).trans ?_)
      rw [if_neg hn]
      exact Station.finishTake_quiet hd
    refine ⟨fun h => hearly (.inl h), fun h => hearly (.inr (.inl h)), fun h => hearly (.inr (.inr h)),
      fun sl hrun hslot hfree hdiffer => ?_⟩
    have hr : s.st.runOpenRefusal f.run slot fp = some 4 := hslot ▸ Station.runOpenRefusal_table hrun hfree hdiffer
    exact next_of_run rfl ha ((Station.takeRunOpen_refused hh hb hr).trans (Station.finishTake_notDue hd rest _ _))

/-! ### JOIN (R20) -/

namespace Mirror

variable {m m' : Mirror} {sender mask : Byte} {fp : W32} {js : Quad JoinSocket}

/-- The checks of R20 that read the mirror. -/
def Joins (m : Mirror) (sender mask : Byte) (fp : W32) : Prop :=
  m.phase = .joining ∧ (∀ x : Socket, (m.entry (rosterPos sender x)).state = .absent) ∧
    ((∃ x : Socket, mask.getLsbD x.val = true) → fp = m.fingerprint)

theorem any_maskFlags (mask : Byte) : (maskFlags mask).toList.any id = true ↔ ∃ x : Socket, mask.getLsbD x.val = true := by
  simp [maskFlags, Quad.toList, Quad.tabulate, Fin.exists_fin_succ]

theorem join_isSome_iff : (∃ m', m.join sender mask fp js = some m') ↔ m.Joins sender mask fp := by
  have habsent := all_sockets fun x => (m.entry (rosterPos sender x)).state == .absent
  simp only [beq_iff_eq] at habsent
  simp only [join, Joins, ← any_maskFlags, ← habsent, Option.ite_none_right_eq_some, Option.some.injEq, exists_and_left,
    exists_eq', and_true]

theorem join_only_roster (h : m.join sender mask fp js = some m') :
    m' = { m with roster := m'.roster } ∧ m'.roster.length = m.roster.length := by
  simp only [join, Option.ite_none_right_eq_some, Option.some.injEq] at h
  obtain ⟨-, rfl⟩ := h
  exact ⟨rfl, List.length_mapIdx⟩

end Mirror

namespace Station

variable {st : Station} {f : Frame} {own : Bool} {rest : List Entry} {mask : Byte} {fp : W32} {js : Quad JoinSocket}

/-- The own-join notice, when the JOIN is the station's own. -/
def ownJoinNotice (own applied : Bool) (mask : Byte) : List Notice := if own then [.ownJoin applied mask] else []

theorem giveAll_ownJoin (st : Station) (own applied : Bool) (mask : Byte) : st.giveAll (ownJoinNotice own applied mask) =
    { st with stc := { st.stc with inbox := st.stc.inbox ++ if own then [.ownJoin applied mask] else [] } } := by
  cases own
  · simp [ownJoinNotice]
  · rfl

theorem takeJoin_applied {m : Mirror} (h : st.lkc.inbound = .frame f own :: rest) (hb : f.body = .join mask fp js)
    (hcur : f.run ≠ 0 ∧ f.run = st.bmr.runNo) (hok : joinFieldsOk js = true) (hj : st.bmr.join f.sender mask fp js = some m) :
    st.takeJoin = st.finishTake rest m (ownJoinNotice own true mask) [] := by
  unfold takeJoin
  rw [takeHead_frame h (b := (mask, fp, js)) (by rw [hb])]
  simp only [currentRun_true hcur, hok, hj, if_true]
  rfl

theorem takeJoin_ignored (h : st.lkc.inbound = .frame f own :: rest) (hb : f.body = .join mask fp js)
    (hcur : f.run ≠ 0 ∧ f.run = st.bmr.runNo)
    (hno : joinFieldsOk js = false ∨ st.bmr.join f.sender mask fp js = none) :
    st.takeJoin = st.finishTake rest st.bmr (ownJoinNotice own false mask) [] := by
  unfold takeJoin
  rw [takeHead_frame h (b := (mask, fp, js)) (by rw [hb])]
  have hnone : (if joinFieldsOk js = true then st.bmr.join f.sender mask fp js else none) = none := by
    rcases hno with hno | hno <;> simp [hno]
  simp only [currentRun_true hcur, if_true, hnone]
  rfl

theorem takeJoin_strange (h : st.lkc.inbound = .frame f own :: rest) (hb : f.body = .join mask fp js)
    (hrun : f.run = 0 ∨ f.run ≠ st.bmr.runNo) :
    st.takeJoin = st.finishTake rest st.bmr (ownJoinNotice own false mask) [.ignoredRunFrame] := by
  unfold takeJoin
  rw [takeHead_frame h (b := (mask, fp, js)) (by rw [hb])]
  simp only [currentRun_false hrun]
  rfl

theorem joinFieldsOk_iff : joinFieldsOk js = true ↔ ∀ x : Socket, (js.get x).fault.toNat ≤ 10 := by
  simp [joinFieldsOk, Quad.toList, Quad.get, Fin.forall_fin_succ]

end Station

/-- Settles O20: the checks of R20 decide between the applied and the ignored JOIN, and the roster changes at the masked
sockets of its node only. -/
theorem appliedJoinMakesEntriesActive : Obligations.AppliedJoinMakesEntriesActive := by
  refine ⟨fun s f own rest mask fp js ha hh hb hcur hp habsent hfp hfault => ?_,
    fun s f own rest mask fp js ha hh hb hcur hd hno => ?_⟩
  · obtain ⟨m, hj⟩ := Mirror.join_isSome_iff (js := js).mpr ⟨hp, habsent, hfp⟩
    obtain ⟨honly, hlen⟩ := Mirror.join_only_roster hj
    have hphase : m.phase = .joining := by rw [honly, hp]
    have hentry := Mirror.entry_join hj
    have happlied := Station.takeJoin_applied hh hb hcur (Station.joinFieldsOk_iff.mpr hfault) hj
    rw [Station.finishTake_notDue (Mirror.notDue_of_phase (by simp [hphase])), List.append_nil,
      Station.giveAll_ownJoin] at happlied
    refine answers_of_run rfl ha happlied ⟨?_, hlen, fun x hx hi => ?_, fun i hi => ?_⟩
    · dsimp only
      rw [← honly]
    · have hfin : Fin.ofNat 4 (positionOf f x) = x := by
        simp only [positionOf, Fin.ofNat]
        ext
        simp
      refine (hentry _).trans ?_
      rw [hfin, if_pos ⟨by simp only [positionOf]; omega, by simpa [maskFlags] using hx, hi⟩]
      rfl
    · refine (hentry i).trans (if_neg ?_)
      rintro ⟨hnode, hmask, -⟩
      refine hi (Fin.ofNat 4 i) (by simpa [maskFlags] using hmask) ?_
      simp only [positionOf, Fin.ofNat]
      omega
  · have hignored : Station.joinFieldsOk js = false ∨ s.st.bmr.join f.sender mask fp js = none := by
      rw [← Bool.not_eq_true, Station.joinFieldsOk_iff, Option.eq_none_iff_forall_ne_some, ← not_exists,
        Mirror.join_isSome_iff, Mirror.Joins]
      rcases hno with h | ⟨x, h⟩ | ⟨h, hne⟩ | ⟨x, h⟩
      · exact .inr fun hj => h hj.1
      · exact .inr fun hj => h (hj.2.1 x)
      · exact .inr fun hj => hne (hj.2.2 h)
      · exact .inl fun hok => absurd (hok x) (by omega)
    refine next_of_run rfl ha ((Station.takeJoin_ignored hh hb hcur hignored).trans ?_)
    rw [Station.finishTake_notDue hd, List.append_nil, Station.giveAll_ownJoin]

/-! ### LOAD_SET (R21) -/

theorem Station.giveAll_loadSet_ended (st : Station) (k : Nat) (p n : Bool) (e : EndCause) :
    st.giveAll [.loadSet k p n, .ended e] = { st with
      notices := .all (some (.phase .ended (some e)))
      stc := { st.stc with inbox := st.stc.inbox ++ [.loadSet k p n, .ended e] }
      inc := { st.inc with inbox := st.inc.inbox ++ [.ended e] }
      slu := { st.slu with inbox := st.slu.inbox ++ [.ended e] } } := by
  simp [Station.give, Station.tellAll, Station.tellStc, Station.tellInc, Station.tellSlu]

/-- Settles O21: the three rows of R21 and the rest. -/
theorem loadSetStartsOrAdvancesTheStep : Obligations.LoadSetStartsOrAdvancesTheStep := by
  refine ⟨fun s f own rest k lp ha hh hb hcur hk => ⟨fun hp hk0 hactive hfresh => ?_, fun hp hk0 hnone => ?_,
    fun c hp hs hc hkc => ?_⟩, fun s f own rest k lp ha hh hb hcur hd h0 h1 => ?_⟩
  · subst hk0
    have hbegun : s.st.bmr.stepBegun.stepTest = (s.st.bmr.stepBegun, []) := by
      refine Mirror.stepTest_goesOn rfl rfl (Mirror.has_true.mpr hactive) (.inr fun hall => ?_)
      obtain ⟨e, he, hstate⟩ := hactive
      have hpassed := (Mirror.allPassed_iff rfl).mp hall e he hstate
      simp [hfresh e he hstate] at hpassed
    refine next_of_run rfl ha ((Station.takeLoadSet_head hh hb).trans (Station.takeRunFrame_gives hcur
      (m := s.st.bmr.stepBegun) (ns := [.loadSet 0 s.st.bmr.paused false]) ?_
      (Mirror.notDue_of_phase (by simp [Mirror.stepBegun]))))
    have hload := Mirror.loadSet_begins hp (Mirror.has_true.mpr hactive)
    rw [hbegun] at hload
    exact hload
  · subst hk0
    exact next_of_run rfl ha (((Station.takeLoadSet_head hh hb).trans (Station.takeRunFrame_gives hcur
      (Mirror.loadSet_noneLeft hp (Mirror.has_false.mpr hnone))
      (Mirror.notDue_of_phase (by simp [Mirror.endRun])))).trans (Station.giveAll_loadSet_ended _ 0 false true .noneLeft))
  · refine next_of_run rfl ha ((Station.takeLoadSet_head hh hb).trans (Station.takeRunFrame_gives hcur
      (m := { s.st.bmr with step := some (c + 1), stepComplete := false })
      (ns := [.loadSet (c + 1) s.st.bmr.paused false]) ?_ (Mirror.notDue_of_phase (by simp [hp]))))
    rw [if_pos hk, hkc]
    exact Mirror.loadSet_advances hp hs hc
  · refine ignores_of_none rfl ha (Station.takeLoadSet_head hh hb) hcur hd ?_
    split
    case _ hk =>
      refine Mirror.loadSet_ignored (fun h => h0 ⟨h.1, BitVec.eq_of_toNat_eq h.2⟩) fun ⟨hp, hc, hs⟩ => ?_
      obtain ⟨c, hs, hck⟩ := Option.map_eq_some_iff.mp hs
      exact h1 ⟨hp, hc, hk, c, hs, hck.symm⟩
    case _ => rfl

/-! ### VERDICT (R22) -/

/-- Settles O22: either verdict changes its one entry, and the step-completion test follows. -/
theorem verdictMovesItsEntry : Obligations.VerdictMovesItsEntry := by
  refine ⟨fun s f own rest x k v c mean spread att adj ha hh hb hcur hk hp hs hactive hlast => ?_,
    fun s f own rest sk k v c mean spread att adj ha hh hb hcur hd hno => ?_⟩
  · have htaken : ∀ (failed : Bool) (m : Mirror), v.toNat = failed.toNat →
        s.st.bmr.verdict (positionOf f x) k failed = some m.stepTest →
        s.st.takeVerdict = s.st.finishTake rest m.stepTest.1 ([] ++ m.stepTest.2) [] := fun failed m hv hm => by
      have hbound : v.toNat ≤ 1 ∧ (v.toNat == 1) = failed := by
        rw [hv]
        cases failed <;> decide
      rw [Station.takeVerdict_head hh hb, Station.takeRunFrame_current hcur rest (m := m.stepTest.1) (ns := m.stepTest.2)]
      · rfl
      · simp only [socketOf_ofNat, toNat_ofNat_step hk, hk, hbound, and_self, if_true]
        exact hm
    have happlied := fun failed => Mirror.verdict_applied (failed := failed) hp hactive hs hlast
    rw [Mirror.moveOut_active hactive] at happlied
    exact ⟨fun hv => answers_of_run rfl ha (htaken false _ (by simp [hv]) (happlied false))
        (stepTested (m := s.st.bmr.setEntry _ _) hp hs giveAll_none),
      fun hv => answers_of_run rfl ha (htaken true _ (by simp [hv]) (happlied true))
        (stepTested (m := s.st.bmr.setEntry _ _) hp hs giveAll_none)⟩
  · refine ignores_of_none rfl ha (Station.takeVerdict_head hh hb) hcur hd ?_
    split
    case _ x hx =>
      obtain rfl := socketOf_eq hx
      split
      case _ hkv =>
        refine if_neg fun ⟨hp, hactive, hs, hlast⟩ => ?_
        rcases hno with h | h | h | h | h | h
        · simp at h
          omega
        · omega
        · omega
        · exact h hp
        · exact h hs
        · exact (h x rfl).elim (fun h => h hactive) hlast
      case _ => rfl
    case _ => rfl

/-! ### BYPASS (R23) -/

theorem bypassCause_code {c : OutCause} (h : c = .overburden ∨ c = .openCircuit ∨ c = .shed ∨ c = .verifyFail) :
    bypassCause c.code = some c := by
  rcases h with rfl | rfl | rfl | rfl <;> rfl

/-- A code that names a cause of a BYPASS is one of the four. -/
theorem bypassCause_some {b : Byte} {c : OutCause} (h : bypassCause b = some c) :
    (c = .overburden ∨ c = .openCircuit ∨ c = .shed ∨ c = .verifyFail) ∧ b = c.code := by
  revert h
  cases c <;> revert b <;> decide

/-- Settles O23: the entry moves OUT in every phase, and the phase decides which test follows. -/
theorem bypassMovesItsEntryOut : Obligations.BypassMovesItsEntryOut := by
  refine ⟨fun s f own rest x k cause ha hh hb hcur hcause hstate => ?_,
    fun s f own rest sk c k ha hh hb hcur hd hno => ?_⟩
  · have hin : Mirror.inRun (s.st.bmr.entry (positionOf f x)).state = true := by
      rcases hstate with h | h | h <;> simp [Mirror.inRun, h]
    have htaken : ∀ m ns, s.st.bmr.bypass (positionOf f x) cause = some (m, ns) →
        s.st.takeBypass = s.st.finishTake rest m ns [] := fun m ns hm => by
      rw [Station.takeBypass_head hh hb, Station.takeRunFrame_current hcur rest (m := m) (ns := ns)]
      simp only [socketOf_ofNat, bypassCause_code hcause]
      exact hm
    refine ⟨fun hp => ?_, fun c hp hs => ?_⟩
    · exact answers_of_run rfl ha
        (htaken _ _ (Mirror.bypass_elsewhere hin hp)) (endTested s rest _)
    · refine answers_of_run rfl ha (htaken _ _ (Mirror.bypass_stepping hin hp)) ?_
      exact stepTested (m := s.st.bmr.moveOut _ _) (pre := [.disturbance]) hp hs giveAll_disturbance
  · refine ignores_of_none rfl ha (Station.takeBypass_head hh hb) hcur hd ?_
    split
    case _ x cause hx hc =>
      obtain rfl := socketOf_eq hx
      obtain ⟨hcause, rfl⟩ := bypassCause_some hc
      refine if_neg ?_
      rcases hno with h | h | h
      · simp at h
        omega
      · exact absurd rfl (h cause hcause)
      · exact Bool.not_eq_true _ ▸ h x rfl
    case _ => rfl

/-! ### ANNOUNCE (R32) -/

/-- Settles O30: the node's positions close whatever the phase, and the phase decides which test follows. -/
theorem announceClosesItsNodesPositions : Obligations.AnnounceClosesItsNodesPositions := by
  intro s f own rest status mask a b ha hh hb
  have hnode : ∀ x : Socket, positionOf f x / 4 = f.sender.toNat := fun x => by
    simp only [positionOf]
    omega
  have hentry := Mirror.entry_closeNode s.st.bmr f.sender.toNat
  have htaken : s.st.takeAnnounce =
      s.st.finishTake rest (s.st.bmr.announce f.sender).1 (s.st.bmr.announce f.sender).2 [] :=
    (Station.takeHead_frame hh (by rw [hb])).trans rfl
  refine ⟨s.st.bmr.closeNode f.sender.toNat, rfl, List.length_mapIdx, fun x hx => ?_, fun x hx => ?_, fun i hi => ?_,
    fun hp => ?_, fun k hp hs => ?_⟩
  · rw [hentry, if_pos (hnode x), Mirror.restarted_moves hx]
  · rw [hentry, if_pos (hnode x), Mirror.restarted_keeps hx]
  · rw [hentry, if_neg hi]
  · rw [Mirror.announce_eq, if_neg hp] at htaken
    exact answers_of_run rfl ha htaken (endTested s rest _)
  · rw [Mirror.announce_eq, if_pos hp] at htaken
    refine ⟨fun hactive => ?_, fun hnone => ?_⟩
    · rw [if_pos ((any_sockets _).mpr (by simpa [rosterPos_eq] using hactive))] at htaken
      exact answers_of_run rfl ha htaken
        (stepTested (m := s.st.bmr.closeNode _) (pre := [.disturbance]) hp hs giveAll_disturbance)
    · rw [if_neg (mt (any_sockets _).mp (by simpa [rosterPos_eq] using hnone))] at htaken
      exact answers_of_run rfl ha htaken (stepTested (m := s.st.bmr.closeNode _) (pre := []) hp hs giveAll_none)

/-! ### What leaves the mirror (R15, R28, R33) -/

namespace Station

variable {st : Station} {f : Frame} {own : Bool} {rest : List Entry}

theorem takePoolExtend_strange {first : W32} {count : W16} (h : st.lkc.inbound = .frame f own :: rest)
    (hb : f.body = .poolExtend first count) (hrun : f.run = 0 ∨ f.run ≠ st.bmr.runNo) :
    st.takePoolExtend = st.finishTake rest st.bmr [] [.ignoredRunFrame] := by
  unfold takePoolExtend
  rw [takeHead_frame h (b := (first, count)) (by rw [hb])]
  simp [currentRun_false hrun]

/-- The own-claim notice, when the claim is the station's own. -/
def ownClaimNotices (own : Bool) (x : Socket) (r : ClaimResult) : List Notice := if own then [.ownClaim x r] else []

theorem giveAll_ownClaim (st : Station) (own : Bool) (x : Socket) (r : ClaimResult) :
    st.giveAll (ownClaimNotices own x r) =
      { st with slu := { st.slu with inbox := st.slu.inbox ++ if own then [.ownClaim x r] else [] } } := by
  cases own
  · simp [ownClaimNotices]
  · rfl

theorem takeSealClaim_strange {x : Socket} (h : st.lkc.inbound = .frame f own :: rest)
    (hb : f.body = .sealClaim (BitVec.ofNat 8 x.val)) (hrun : f.run = 0 ∨ f.run ≠ st.bmr.runNo) :
    st.takeSealClaim = st.finishTake rest st.bmr [] (ownClaimNotices own x .refused ++ [.ignoredRunFrame]) := by
  unfold takeSealClaim
  rw [takeHead_frame h (b := BitVec.ofNat 8 x.val) (by rw [hb])]
  simp only [socketOf_ofNat, currentRun_false hrun]
  rfl

/-- A claim of another station that is no frame of the run is counted, whether it names a socket or not. -/
theorem takeSealClaim_foreignStrange {sk : Byte} (h : st.lkc.inbound = .frame f false :: rest)
    (hb : f.body = .sealClaim sk) (hrun : f.run = 0 ∨ f.run ≠ st.bmr.runNo) :
    st.takeSealClaim = st.finishTake rest st.bmr [] [.ignoredRunFrame] := by
  unfold takeSealClaim
  rw [takeHead_frame h (b := sk) (by rw [hb])]
  split <;> simp [currentRun_false hrun]

end Station

/-- Settles O26: none of these entries reaches the mirror, so only the notices differ. -/
theorem markerQueryAndStrangeFramesLeaveTheMirror : Obligations.MarkerQueryAndStrangeFramesLeaveTheMirror := by
  refine ⟨fun s rest ha hh hd => ?_, fun s f own rest target ha hh hb hd => ?_, fun s f own rest r ha hh hb hd => ?_,
    fun s f own rest ha hh hd hrun => ?_⟩
  · refine next_of_run rfl ha ?_
    simp only [Station.takeLinkReset, hh, Station.finishTake_notDue hd, List.append_nil, Mirror.linkReset]
    split
    · rfl
    · simp
  · have hquery : s.st.takeQuery =
        s.st.finishTake rest s.st.bmr [] (if target.toNat = s.st.cfl.node.val then [.query] else []) :=
      (Station.takeHead_frame hh (by rw [hb])).trans rfl
    refine next_of_run rfl ha (hquery.trans ?_)
    rw [Station.finishTake_notDue hd]
    dsimp only
    split <;> rfl
  · have hstate : s.st.takeState = s.st.finishTake rest s.st.bmr [] [] :=
      (Station.takeHead_frame hh (by rw [hb])).trans rfl
    exact next_of_run rfl ha (hstate.trans (Station.finishTake_quiet hd))
  · have hcounted : ∀ before, s.st.finishTake rest s.st.bmr before [.ignoredRunFrame] =
        (({ s.st with lkc := { s.st.lkc with inbound := rest } } : Station).giveAll before).give .ignoredRunFrame :=
      fun before => by
        rw [Station.finishTake_notDue hd, Station.giveAll_append]
        rfl
    intro counted
    refine ⟨fun c hc hother => ?_, fun mask fp js hown hb => ?_, fun x hown hb => ?_⟩
    · have hcount := hcounted []
      have hframe : ∀ {g : Station → Station} {fx}, exec c s = s.run g → g s.st = s.st.takeRunFrame rest f.run fx →
          exec c s = .next (s.upd counted) := fun he hg =>
        next_of_run he ha ((hg.trans (Station.takeRunFrame_strange hrun rest _)).trans hcount)
      cases c
      case takeLoadSet =>
        cases hb : f.body <;> rw [hb] at hc
        case loadSet => exact hframe rfl (Station.takeLoadSet_head hh hb)
        all_goals cases hc
      case takeVerdict =>
        cases hb : f.body <;> rw [hb] at hc
        case verdict => exact hframe rfl (Station.takeVerdict_head hh hb)
        all_goals cases hc
      case takeBypass =>
        cases hb : f.body <;> rw [hb] at hc
        case bypass => exact hframe rfl (Station.takeBypass_head hh hb)
        all_goals cases hc
      case takeShed =>
        cases hb : f.body <;> rw [hb] at hc
        case shed => exact hframe rfl (Station.takeShed_head hh hb)
        all_goals cases hc
      case takePause =>
        cases hb : f.body <;> rw [hb] at hc
        case pause => exact hframe rfl (Station.takePause_head hh hb)
        all_goals cases hc
      case takeResume =>
        cases hb : f.body <;> rw [hb] at hc
        case resume => exact hframe rfl (Station.takeResume_head hh hb)
        all_goals cases hc
      case takeRunAbort =>
        cases hb : f.body <;> rw [hb] at hc
        case runAbort => exact hframe rfl (Station.takeRunAbort_head hh hb)
        all_goals cases hc
      case takeSealDone =>
        cases hb : f.body <;> rw [hb] at hc
        case sealDone => exact hframe rfl (Station.takeSealDone_head hh hb)
        all_goals cases hc
      case takeSealSpoil =>
        cases hb : f.body <;> rw [hb] at hc
        case sealSpoil => exact hframe rfl (Station.takeSealSpoil_head hh hb)
        all_goals cases hc
      case takeJoin =>
        obtain rfl : own = false := hother.resolve_right (by simp)
        cases hb : f.body <;> rw [hb] at hc
        case join => exact next_of_run rfl ha ((Station.takeJoin_strange hh hb hrun).trans hcount)
        all_goals cases hc
      case takePoolExtend =>
        cases hb : f.body <;> rw [hb] at hc
        case poolExtend => exact next_of_run rfl ha ((Station.takePoolExtend_strange hh hb hrun).trans hcount)
        all_goals cases hc
      case takeSealClaim =>
        obtain rfl : own = false := hother.resolve_right (by simp)
        cases hb : f.body <;> rw [hb] at hc
        case sealClaim => exact next_of_run rfl ha ((Station.takeSealClaim_foreignStrange hh hb hrun).trans hcount)
        all_goals cases hc
      all_goals cases hc
    · subst hown
      exact next_of_run rfl ha ((Station.takeJoin_strange hh hb hrun).trans (hcounted _))
    · subst hown
      refine next_of_run rfl ha ((Station.takeSealClaim_strange hh hb hrun).trans ?_)
      rw [Station.finishTake_notDue hd]
      rfl

end Sys2Proof.Machine
end

section
/-! PROOFS. The frames of sealing: SEAL_CLAIM, the outcomes, POOL_EXTEND (R29 to R31). -/

namespace Sys2Proof.Machine

/-! ### SEAL_CLAIM (R30) -/

namespace Mirror

variable {m : Mirror} {i : Nat}

/-- A position that has just been given a state of sealing keeps the end test from ending the run. -/
theorem notDue_of_setEntry {m' : Mirror} {e : RosterEntry} (hr : m'.roster = (m.setEntry i e).roster)
    (hi : i < m.roster.length) (he : e.state = .done ∨ e.state = .sealWait ∨ e.state = .claimed) : ¬ m'.EndDue := by
  have hentry : m'.entry i = e := by
    rw [show m'.entry i = (m.setEntry i e).entry i by simp [entry, hr], entry_setEntry_same hi]
  refine notDue_of_has he (has_of_entry (congrArg RosterEntry.state hentry) ?_)
  rcases he with h | h | h <;> simp [h]

end Mirror

namespace Station

variable {st : Station} {f : Frame} {own : Bool} {rest : List Entry}

/-- The station's own claim is answered; another station's changes the mirror only. -/
theorem takeSealClaim_gives {x : Socket} {m : Mirror} {r : ClaimResult} (h : st.lkc.inbound = .frame f own :: rest)
    (hb : f.body = .sealClaim (BitVec.ofNat 8 x.val)) (hcur : f.run ≠ 0 ∧ f.run = st.bmr.runNo)
    (hm : st.bmr.sealClaim (positionOf f x) = (m, r)) (hd : ¬ m.EndDue) : st.takeSealClaim = { st with
      lkc := { st.lkc with inbound := rest }
      bmr := m
      slu := { st.slu with inbox := st.slu.inbox ++ if own then [.ownClaim x r] else [] } } := by
  have htaken : st.takeSealClaim = st.finishTake rest m [] (ownClaimNotices own x r) := by
    unfold takeSealClaim
    rw [takeHead_frame h (b := BitVec.ofNat 8 x.val) (by rw [hb])]
    simp only [socketOf_ofNat, currentRun_true hcur, if_true, rosterPos_eq, hm]
    rfl
  rw [htaken, finishTake_notDue hd, List.nil_append, giveAll_ownClaim]

theorem takeSealClaim_noSocket {sk : Byte} (h : st.lkc.inbound = .frame f own :: rest) (hb : f.body = .sealClaim sk)
    (hcur : f.run ≠ 0 ∧ f.run = st.bmr.runNo) (hs : 3 < sk.toNat) :
    st.takeSealClaim = st.finishTake rest st.bmr [] [] := by
  unfold takeSealClaim
  rw [takeHead_frame h (b := sk) (by rw [hb])]
  simp only [socketOf_none hs, currentRun_true hcur, if_true]

end Station

/-- Settles O28: the three answers to a claim, and one that names no socket. -/
theorem sealClaimTakesANumberOrWaits : Obligations.SealClaimTakesANumberOrWaits := by
  refine ⟨fun s f own rest x ha hh hb hcur => ⟨fun b bs hp hs hpool => ?_, fun hp hs hpool => ?_, fun hd hno => ?_⟩,
    fun s f own rest sk ha hh hb hcur hd hsk => ?_⟩
  · have hclaim := Mirror.sealClaim_takes hp hs hpool
    rw [Mirror.assign_cons hpool] at hclaim
    exact next_of_run rfl ha (Station.takeSealClaim_gives hh hb hcur hclaim
      (Mirror.notDue_of_setEntry (m := s.st.bmr) rfl (Mirror.lt_of_state hs (by simp)) (.inr (.inr rfl))))
  · exact next_of_run rfl ha (Station.takeSealClaim_gives hh hb hcur (Mirror.sealClaim_waits hp hs hpool)
      (Mirror.notDue_of_setEntry (m := s.st.bmr) rfl (Mirror.lt_of_state hs (by simp)) (.inr (.inl rfl))))
  · exact next_of_run rfl ha (Station.takeSealClaim_gives hh hb hcur (Mirror.sealClaim_refused hno) hd)
  · exact ignores_of_run rfl ha ((Station.takeSealClaim_noSocket hh hb hcur hsk).trans (Station.finishTake_quiet hd))

/-! ### SEAL_DONE and SEAL_SPOIL (R31) -/

theorem mem_spoilCodes {c : Byte} : c ∈ spoilCodes ↔ ∃ k : SpoilCause, c = k.code := by
  constructor
  · intro h
    simp only [spoilCodes, List.mem_cons, List.not_mem_nil, or_false] at h
    rcases h with rfl | rfl | rfl | rfl | rfl
    · exact ⟨.svcFail, rfl⟩
    · exact ⟨.locked, rfl⟩
    · exact ⟨.sealMismatch, rfl⟩
    · exact ⟨.aborted, rfl⟩
    · exact ⟨.fault, rfl⟩
  · rintro ⟨k, rfl⟩
    cases k <;> decide

/-- A run frame whose effect is none, or leaves the mirror with no notice. -/
theorem ignores_of_stay {c : Instr} {s : State} {g : Station → Station} {rest : List Entry} {run : Byte}
    {fx : Mirror → Option (Mirror × List Notice)} (he : exec c s = s.run g) (ha : s.Awake)
    (hg : g s.st = s.st.takeRunFrame rest run fx) (hcur : s.Current run) (hd : ¬ s.st.bmr.EndDue)
    (hfx : fx s.st.bmr = none ∨ fx s.st.bmr = some (s.st.bmr, [])) : s.Ignores c rest := by
  rcases hfx with hfx | hfx
  · exact ignores_of_none he ha hg hcur hd hfx
  · exact ignores_of_run he ha (hg.trans (Station.takeRunFrame_gives hcur hfx hd))

/-- Settles O29: an outcome closes the CLAIMED entry of its number, then the end test; any other leaves the mirror. -/
theorem sealOutcomeClosesItsEntry : Obligations.SealOutcomeClosesItsEntry := by
  refine ⟨fun s f own rest x n ha hh hcur hn hs => ?_, fun s f own rest sk c n ha hh hcur hd hb hc => ?_,
    fun s f own rest sk n ha hh hcur hd hno => ?_⟩
  · have hclaimed : ¬ s.st.bmr.EndDue := Mirror.notDue_of_has (.inr (.inr rfl)) (Mirror.has_of_entry hs (by simp))
    have hdone : ∀ d m ns, f.body = .sealDone (BitVec.ofNat 8 x.val) n d →
        s.st.bmr.sealDone (positionOf f x) n.toNat = (m, ns) → s.st.takeSealDone = s.st.finishTake rest m ns [] :=
      fun d m ns hb hm => by
        rw [Station.takeSealDone_head hh hb, Station.takeRunFrame_current hcur rest (m := m) (ns := ns)]
        simp only [socketOf_ofNat, if_neg hn]
        exact congrArg some hm
    have hspoil : ∀ (c : SpoilCause) m ns, f.body = .sealSpoil (BitVec.ofNat 8 x.val) n c.code →
        s.st.bmr.sealSpoil (positionOf f x) n.toNat = (m, ns) → s.st.takeSealSpoil = s.st.finishTake rest m ns [] :=
      fun c m ns hb hm => by
        rw [Station.takeSealSpoil_head hh hb, Station.takeRunFrame_current hcur rest (m := m) (ns := ns)]
        simp only [socketOf_ofNat, mem_spoilCodes.mpr ⟨c, rfl⟩, not_true_eq_false, hn, or_self, if_false]
        exact congrArg some hm
    refine ⟨fun d hb hnum => ?_, fun c hb hnum => ?_, fun d hb hnum => ?_, fun c hb hnum => ?_⟩
    · exact answers_of_run rfl ha (hdone d _ _ hb (Mirror.sealDone_closes hs hnum)) (endTested s rest _)
    · exact answers_of_run rfl ha (hspoil c _ _ hb (Mirror.sealSpoil_closes hs hnum)) (endTested s rest _)
    · exact next_of_run rfl ha ((hdone d _ _ hb (Mirror.sealDone_mismatch hs hnum)).trans
        (Station.finishTake_notDue hclaimed rest _ _))
    · exact next_of_run rfl ha ((hspoil c _ _ hb (Mirror.sealSpoil_mismatch hs hnum)).trans
        (Station.finishTake_notDue hclaimed rest _ _))
  · refine ignores_of_none rfl ha (Station.takeSealSpoil_head hh hb) hcur hd ?_
    have hcode : c ∉ spoilCodes := fun h => (mem_spoilCodes.mp h).elim hc
    split
    · exact if_pos (.inr hcode)
    · rfl
  · have hopen : ∀ x, socketOf sk = some x → n ≠ 0 → (s.st.bmr.entry (positionOf f x)).state ≠ .claimed :=
      fun x hx hn => by
        obtain rfl := socketOf_eq hx
        rcases hno with h | h | h
        · exact absurd h hn
        · simp at h
          omega
        · exact h x rfl
    refine ⟨fun d hb => ignores_of_stay rfl ha (Station.takeSealDone_head hh hb) hcur hd ?_,
      fun c hb => ignores_of_stay rfl ha (Station.takeSealSpoil_head hh hb) hcur hd ?_⟩
    · split
      case _ x hx =>
        split
        · exact .inl rfl
        case _ hn => exact .inr (congrArg some (Mirror.sealDone_ignored (hopen x hx hn)))
      case _ => exact .inl rfl
    · split
      case _ x hx =>
        split
        · exact .inl rfl
        case _ hn => exact .inr (congrArg some (Mirror.sealSpoil_ignored (hopen x hx fun h => hn (.inl h))))
      case _ => exact .inl rfl

/-! ### POOL_EXTEND (R29, R14) -/

namespace Mirror

variable {m : Mirror}

/-- What one block serves, in order, and what is left of it. -/
theorem serve_one_block {b : PoolBlock} (l : List Nat) (hp : m.pool = [b]) (hb : b.next < b.count) :
    (serve l m).2 = (l.take (b.count - b.next)).zipIdx (b.first + b.next) ∧
      (serve l m).1.pool =
        if l.length < b.count - b.next then [{ b with next := b.next + l.length }] else [] := by
  induction l generalizing m b with
  | nil => simp [serve, hp, Nat.sub_pos_of_lt hb]
  | cons i is ih =>
    obtain ⟨k, hk⟩ : ∃ k, b.count - b.next = k + 1 := ⟨b.count - b.next - 1, by omega⟩
    rw [serve_cons hp, assign_cons hp, hk]
    by_cases hlast : b.next + 1 = b.count
    · obtain rfl : k = 0 := by omega
      rw [serve_nil_pool _ _ (by simp [hlast])]
      simp [hlast]
    · have hrest := ih (b := { b with next := b.next + 1 })
        (m := { m.setEntry i { m.entry i with state := .claimed, number := some (b.first + b.next) } with
          pool := [{ b with next := b.next + 1 }], issued := m.issued + 1 }) rfl (by dsimp only; omega)
      have hk' : b.count - (b.next + 1) = k := by omega
      dsimp only at hrest
      rw [hk'] at hrest
      simp only [hlast, if_false, hrest]
      simp [Nat.add_assoc, Nat.add_comm 1]

/-- No claim waits: the block is appended and nothing is served. -/
theorem poolExtend_idle {f c : Nat} (ha : m.extendAccepted f c = true) (hw : m.waiting = []) :
    m.poolExtend f c = some (m.withBlock f c, []) := by
  have hsame : ({ m.withBlock f c with waiting := [] } : Mirror) = m.withBlock f c := by
    rw [← hw]
    rfl
  rw [poolExtend_eq, if_pos ha, hw, serve, hsame]

/-- After a service that finds a number for the first waiting position, that position is CLAIMED. -/
theorem serve_notDue {b : PoolBlock} (hd : ¬ m.EndDue) (hp : m.pool = [b]) (hb : b.next < b.count) (l : List Nat)
    (hn : l.Nodup) (hl : ∀ i ∈ l, i < m.roster.length) : ¬ (serve l m).1.EndDue := by
  cases l with
  | nil => exact hd
  | cons i is =>
    obtain ⟨-, -, -, -, -, hserved, -⟩ := serve_one (i :: is) m b hp hb hn hl
    exact notDue_of_has (.inr (.inr rfl)) (has_of_entry (hserved 0 i (by omega) rfl).1 (by simp))

end Mirror

namespace Station

variable {st : Station} {f : Frame} {own : Bool} {rest : List Entry} {first : W32} {count : W16}

theorem takePoolExtend_accepted {m : Mirror} {l : List (Nat × Nat)} (h : st.lkc.inbound = .frame f own :: rest)
    (hb : f.body = .poolExtend first count) (hcur : f.run ≠ 0 ∧ f.run = st.bmr.runNo)
    (hm : st.bmr.poolExtend first.toNat count.toNat = some (m, l)) :
    st.takePoolExtend = st.finishTake rest m [] (st.servedHere l) := by
  unfold takePoolExtend
  rw [takeHead_frame h (b := (first, count)) (by rw [hb])]
  simp only [currentRun_true hcur, hm, if_true]

theorem takePoolExtend_ignored (h : st.lkc.inbound = .frame f own :: rest) (hb : f.body = .poolExtend first count)
    (hcur : f.run ≠ 0 ∧ f.run = st.bmr.runNo) (hm : st.bmr.poolExtend first.toNat count.toNat = none) :
    st.takePoolExtend = st.finishTake rest st.bmr [] [] := by
  unfold takePoolExtend
  rw [takeHead_frame h (b := (first, count)) (by rw [hb])]
  simp only [currentRun_true hcur, hm, if_true]

theorem giveAll_assignments (l : List (Nat × Nat)) (st : Station) :
    st.giveAll (l.map fun a => .assignment (Fin.ofNat 4 a.1) a.2) = { st with
      slu := { st.slu with inbox := st.slu.inbox ++ l.map fun a => .assignment (Fin.ofNat 4 a.1) a.2 } } := by
  induction l generalizing st with
  | nil => simp
  | cons a l ih =>
    rw [List.map_cons, giveAll_cons, ih]
    simp [give, tellSlu]

end Station

/-- Settles O27: the checks of R29, and the service of the waiting claims from the block appended to an empty pool. -/
theorem poolExtendAppendsAndServes : Obligations.PoolExtendAppendsAndServes := by
  refine ⟨fun s f own rest first count ha hh hb hcur hopen hroom hhigh hpos hlast hd => ?_,
    fun s f own rest first count ha hh hb hcur hd hno => ?_⟩
  · have hacc := Mirror.extendAccepted_iff.mpr ⟨hopen, hroom, hhigh, hpos, hlast⟩
    refine ⟨fun hw => ?_, fun hpool hnodup hlt => ?_⟩
    · exact next_of_run rfl ha ((Station.takePoolExtend_accepted hh hb hcur (Mirror.poolExtend_idle hacc hw)).trans
        (Station.finishTake_notDue (m := s.st.bmr.withBlock _ _) hd rest _ _))
    · have hblock : (s.st.bmr.withBlock first.toNat count.toNat).pool =
          [{ first := first.toNat, count := count.toNat, next := 0 }] := by simp [Mirror.withBlock, hpool]
      have hserve := serve_one s.st.bmr.waiting _ _ hblock hpos hnodup hlt
      obtain ⟨hserved, hleft⟩ := Mirror.serve_one_block s.st.bmr.waiting hblock hpos
      obtain ⟨hwaiting, hissued, hmark, -, -, hnumbers, hothers⟩ := hserve
      have htaken := Station.takePoolExtend_accepted hh hb hcur ((Mirror.poolExtend_eq _ _ _).trans (if_pos hacc))
      rw [Station.finishTake_notDue (Mirror.serve_notDue (m := s.st.bmr.withBlock _ _) hd hblock hpos _ hnodup hlt), List.nil_append,
        Station.servedHere, Station.giveAll_assignments, hserved] at htaken
      refine answers_of_run rfl ha htaken ⟨rfl, hwaiting, hissued, hmark, ?_, rfl, fun n i hn hi => ?_, hothers⟩
      · simpa using hleft
      · simpa using hnumbers n i hn hi
  · refine ignores_of_run rfl ha ((Station.takePoolExtend_ignored hh hb hcur ?_).trans (Station.finishTake_quiet hd))
    rw [Mirror.poolExtend_eq, if_neg]
    rw [Mirror.extendAccepted_iff]
    rintro ⟨hopen, hroom, hhigh, hpos, hlast⟩
    rcases hno with h | h | h | h | h
    · simp [h] at hopen
    · omega
    · omega
    · simp [h] at hpos
    · omega

end Sys2Proof.Machine
end

section
/-! PROOFS. Rounds (R37 to R45): who marks which slot, what the marks decide, and what the decision leaves of the queue. -/

namespace Sys2Proof.Machine

/-! ### The decision of R43, from the marks and back -/

section Decision

variable {rot : Node} {u o : W32} {hold : Bool} {w : Node}

theorem decideRound_of_urgent (hw : slotMarked u w = true) (hl : ∀ v : Node, v < w → slotMarked u v = false) :
    decideRound rot u o hold = .urgent w := by
  simp [decideRound, head_marked hw hl]

theorem decideRound_of_hold (hu : ∀ v, slotMarked u v = false) : decideRound rot u o true = .hold := by
  simp [decideRound, head_none hu]

theorem decideRound_of_ordinary (hu : ∀ v, slotMarked u v = false) (hw : slotMarked o w = true)
    (hl : ∀ v : Node, slotMarked o v = true → roundRank rot w ≤ roundRank rot v) :
    decideRound rot u o false = .ordinary w := by
  simp [decideRound, head_none hu, first_after hw hl]

theorem decideRound_of_noMark (hu : ∀ v, slotMarked u v = false) (ho : ∀ v, slotMarked o v = false) :
    decideRound rot u o false = .free := by
  simp [decideRound, head_none hu, first_none ho]

/-- Where a slot is marked, one of the marked nodes has the least value of any measure. -/
theorem exists_least_marked (m : Node → Nat) (h : slotMarked u w = true) :
    ∃ v, slotMarked u v = true ∧ ∀ x, slotMarked u x = true → m v ≤ m x := by
  obtain ⟨v, hv, hl⟩ := Finset.exists_min_image (Finset.univ.filter fun n => slotMarked u n = true) m ⟨w, by simpa using h⟩
  exact ⟨v, by simpa using hv, fun x hx => hl x (by simpa using hx)⟩

/-- R43, check 1: with a mark in the urgent window, the lowest node marked there wins. -/
theorem exists_decideRound_urgent (h : slotMarked u w = true) :
    ∃ v, decideRound rot u o hold = .urgent v ∧ slotMarked u v = true ∧ ∀ x, slotMarked u x = true → v ≤ x := by
  obtain ⟨v, hv, hl⟩ := exists_least_marked Fin.val h
  refine ⟨v, decideRound_of_urgent hv fun x hx => ?_, hv, hl⟩
  by_contra hc
  exact absurd (hl x (by simpa using hc)) (not_le.mpr hx)

theorem decideRound_eq_urgent (h : decideRound rot u o hold = .urgent w) :
    slotMarked u w = true ∧ ∀ v, slotMarked u v = true → w ≤ v := by
  by_cases hu : ∃ v, slotMarked u v = true
  · obtain ⟨v, hv⟩ := hu
    obtain ⟨x, hd, hx, hl⟩ := exists_decideRound_urgent (rot := rot) (o := o) (hold := hold) hv
    cases hd.symm.trans h
    exact ⟨hx, hl⟩
  · have hnone : (markedNodes u).head? = none := head_none (by simpa using hu)
    simp only [decideRound, hnone] at h
    split at h
    · cases h
    · split at h <;> cases h

/-- R43, checks 2 and 3: an ordinary winner has no urgent mark and no hold before it, and is the nearest behind the rotating
ID. -/
theorem decideRound_eq_ordinary (h : decideRound rot u o hold = .ordinary w) :
    (∀ v, slotMarked u v = false) ∧ hold = false ∧ slotMarked o w = true ∧
      ∀ v, slotMarked o v = true → roundRank rot w ≤ roundRank rot v := by
  have hu : ∀ v, slotMarked u v = false := by
    by_contra hc
    simp only [not_forall, Bool.not_eq_false] at hc
    obtain ⟨v, hv⟩ := hc
    obtain ⟨x, hd, -, -⟩ := exists_decideRound_urgent (rot := rot) (o := o) (hold := hold) hv
    cases hd.symm.trans h
  cases hold with
  | true => cases (decideRound_of_hold hu).symm.trans h
  | false =>
    by_cases ho : ∃ v, slotMarked o v = true
    · obtain ⟨v, hv⟩ := ho
      obtain ⟨x, hx, hl⟩ := exists_least_marked (roundRank rot) hv
      cases (decideRound_of_ordinary hu hx hl).symm.trans h
      exact ⟨hu, rfl, hx, hl⟩
    · cases (decideRound_of_noMark hu (by simpa using ho)).symm.trans h

end Decision

namespace Station

variable {st : Station} {u o : W32} {hold : Bool} {e : OutEntry} {w : Node}

/-! ### The station's own marks (R42) -/

@[simp] theorem slotMarked_zero {v : Node} : slotMarked 0#32 v = false := marked_zero

theorem slotMarked_ownMarks {urgent : Bool} {n : Node} : slotMarked (st.ownMarks urgent) n = true ↔
    n = st.cfl.node ∧ ∃ e, st.entryAt .candidate = some e ∧ urgentBody e.body = urgent := by
  unfold ownMarks
  cases st.entryAt .candidate with
  | none => simp
  | some e => by_cases he : urgentBody e.body = urgent <;> simp [he, marked_one]

theorem marksHold_iff : st.marksHold = true ↔ st.lkc.link ≠ .listen ∧ 5 ≤ frameFill st.lkc.inbound := by
  rw [marksHold, Bool.and_eq_true, bne_iff_ne, decide_eq_true_iff]
  rfl

/-- In the window its candidate does not belong to, the station marks no slot. -/
theorem ownMarks_otherWindow {urgent : Bool} (hc : st.entryAt .candidate = some e) (he : urgentBody e.body ≠ urgent) :
    st.ownMarks urgent = 0 := by
  simp [ownMarks, hc, he]

/-- In its candidate's window the station's own slot is marked, whatever the others mark. -/
theorem slotMarked_own {urgent : Bool} (hc : st.entryAt .candidate = some e) (he : urgentBody e.body = urgent) (m : W32) :
    slotMarked (m ||| st.ownMarks urgent) st.cfl.node = true := by
  simp [marked_or, slotMarked_ownMarks.mpr ⟨rfl, e, hc, he⟩]

/-- A marked slot is one the others marked, or the station's own. -/
theorem marked_of_or_ownMarks {urgent : Bool} {v : Node} {m : W32} (h : slotMarked (m ||| st.ownMarks urgent) v = true) :
    slotMarked m v = true ∨ v = st.cfl.node := by
  rw [marked_or, Bool.or_eq_true] at h
  exact h.imp_right fun h => (slotMarked_ownMarks.mp h).1

/-! ### The end of a round (R43 to R45) -/

/-- The decision of the round from the marks seen and the station's own. -/
def decision (st : Station) (u o : W32) (hold : Bool) : RoundDecision :=
  decideRound st.lkc.rotating (u ||| st.ownMarks true) (o ||| st.ownMarks false) (hold || st.marksHold)

/-- R44: the rotating ID set by an ordinary round. -/
def turnedTo (st : Station) (w : Node) : Station := { st with lkc := { st.lkc with rotating := w } }

theorem holdSlotEnd_urgent (hm : st.lkc.medium = .round) (h : st.decision u o hold = .urgent w) :
    holdSlotEnd u o hold st = st.roundWon w false := by
  unfold decision at h
  simp [holdSlotEnd, hm, h]

theorem holdSlotEnd_ordinary (hm : st.lkc.medium = .round) (h : st.decision u o hold = .ordinary w) :
    holdSlotEnd u o hold st = (st.turnedTo w).roundWon w true := by
  unfold decision at h
  simp [holdSlotEnd, hm, h, turnedTo, modLkc]

theorem holdSlotEnd_hold (hm : st.lkc.medium = .round) (h : st.decision u o hold = .hold) :
    holdSlotEnd u o hold st = { st with lkc := { st.lkc with
      medium := .holdWait, holdWait := some 2, outbound := st.lkc.backFrom .candidate } } := by
  unfold decision at h
  simp only [holdSlotEnd, hm, h, if_true, returnEntries_eq]
  rfl

theorem holdSlotEnd_free (hm : st.lkc.medium = .round) (h : st.decision u o hold = .free) :
    holdSlotEnd u o hold st = { st with lkc := { freeMedium st.lkc with outbound := st.lkc.backFrom .candidate } } := by
  unfold decision at h
  simp only [holdSlotEnd, hm, h, if_true, returnEntries_eq]
  rfl

/-- R45: the winner with a candidate puts it on the wire. -/
theorem roundWon_own (hw : w = st.cfl.node) (hc : st.entryAt .candidate = some e) (ordinary : Bool) :
    st.roundWon w ordinary =
      { st with lkc := putOnWire { freeMedium st.lkc with medium := .frame, ordinary := ordinary } } := by
  simp [roundWon, modLkc, hw, hc]

/-- R45: at any other station what was the candidate is queued again. -/
theorem roundWon_lost (hw : w ≠ st.cfl.node) (ordinary : Bool) : st.roundWon w ordinary =
    { st with lkc := { freeMedium st.lkc with
      medium := .frame, ordinary := ordinary, outbound := st.lkc.backFrom .candidate } } := by
  simp [roundWon, modLkc, hw, ← returnEntries_eq, freeMedium]

/-- What a round with a winner leaves at every station (R37). -/
theorem roundWon_frame (w : Node) (ordinary : Bool) : ∃ n q, st.roundWon w ordinary = { st with
    lkc := { freeMedium st.lkc with medium := .frame, ordinary := ordinary, objections := n, outbound := q } } := by
  by_cases h : w = st.cfl.node ∧ (st.entryAt .candidate).isSome = true
  · exact ⟨_, _, by simp only [roundWon, modLkc, if_pos h]; rfl⟩
  · exact ⟨_, _, by simp only [roundWon, modLkc, if_neg h]; rfl⟩

/-- What the end of a round can change. -/
theorem holdSlotEnd_changes (hm : st.lkc.medium = .round) :
    let l := (holdSlotEnd u o hold st).lkc
    holdSlotEnd u o hold st = { st with lkc := { st.lkc with
      medium := l.medium, ordinary := l.ordinary, rotating := l.rotating, holdWait := l.holdWait, followed := l.followed
      mark := l.mark, stopped := l.stopped, objections := l.objections, outbound := l.outbound } } := by
  cases hd : st.decision u o hold with
  | urgent w =>
    obtain ⟨n, q, h⟩ := st.roundWon_frame w false
    rw [holdSlotEnd_urgent hm hd, h]
    rfl
  | hold => rw [holdSlotEnd_hold hm hd]
  | ordinary w =>
    obtain ⟨n, q, h⟩ := (st.turnedTo w).roundWon_frame w true
    rw [holdSlotEnd_ordinary hm hd, h]
    rfl
  | free => rw [holdSlotEnd_free hm hd]; rfl

/-- R45: a round this station does not win returns its candidate and counts nothing. -/
theorem holdSlotEnd_lost (hm : st.lkc.medium = .round) (hu : st.decision u o hold ≠ .urgent st.cfl.node)
    (ho : st.decision u o hold ≠ .ordinary st.cfl.node) :
    (holdSlotEnd u o hold st).lkc.outbound = st.lkc.backFrom .candidate ∧
      (holdSlotEnd u o hold st).lkc.objections = st.lkc.objections := by
  cases hd : st.decision u o hold with
  | urgent w =>
    have hw : w ≠ st.cfl.node := fun h => hu (h ▸ hd)
    rw [holdSlotEnd_urgent hm hd, roundWon_lost hw]
    exact ⟨rfl, rfl⟩
  | hold => rw [holdSlotEnd_hold hm hd]; exact ⟨rfl, rfl⟩
  | ordinary w =>
    have hw : w ≠ st.cfl.node := fun h => ho (h ▸ hd)
    rw [holdSlotEnd_ordinary hm hd, roundWon_lost (st := st.turnedTo w) hw]
    exact ⟨rfl, rfl⟩
  | free => rw [holdSlotEnd_free hm hd]; exact ⟨rfl, rfl⟩

end Station

/-! ### Entries that come back (R45, R56) -/

theorem mem_backFrom {l : Lkc} {p : Place} {x : OutEntry} : x ∈ l.backFrom p ↔
    (x ∈ l.outbound ∧ x.place ≠ p) ∨
      ∃ y ∈ l.outbound, y.place = p ∧ y.withdrawn = false ∧ x = { y with place := .queued } := by
  rw [← returnEntries_eq, mem_returnEntries]

theorem place_ne_of_mem_backFrom {l : Lkc} {p : Place} {x : OutEntry} (hp : p ≠ .queued) (h : x ∈ l.backFrom p) :
    x.place ≠ p := by
  rcases mem_backFrom.mp h with ⟨-, hx⟩ | ⟨y, -, -, -, rfl⟩
  · exact hx
  · exact hp.symm

/-- The winner's candidate is on the wire (R45). -/
theorem mem_putOnWire {l : Lkc} {e : OutEntry} (h : e ∈ l.outbound) (hp : e.place = .candidate) :
    { e with place := .onWire } ∈ (Station.putOnWire l).outbound :=
  List.mem_map.mpr ⟨e, h, by simp [hp]⟩

/-! ### The statements -/

/-- Settles O10, by the four decisions of R43. -/
theorem roundIsDecidedFromMarks : Obligations.RoundIsDecidedFromMarks := by
  intro s u o hold ha hm U O H
  refine ⟨?_, fun w hw hl => ?_, fun hu hh => ?_, fun hu hh w hw hl => ?_, fun hu hh ho => ?_⟩
  · exact answers_of_run rfl ha rfl (Station.holdSlotEnd_changes hm)
  · have hd : s.st.decision u o hold = .urgent w := decideRound_of_urgent hw hl
    obtain ⟨n, q, h⟩ := s.st.roundWon_frame w false
    exact answers_of_run rfl ha ((Station.holdSlotEnd_urgent hm hd).trans h) ⟨rfl, rfl, rfl⟩
  · have hd : s.st.decision u o hold = .hold := by
      rw [Station.decision, show (hold || s.st.marksHold) = true from hh]
      exact decideRound_of_hold hu
    exact answers_of_run rfl ha (Station.holdSlotEnd_hold hm hd) ⟨rfl, rfl, rfl⟩
  · have hd : s.st.decision u o hold = .ordinary w := by
      rw [Station.decision, show (hold || s.st.marksHold) = false from hh]
      exact decideRound_of_ordinary hu hw hl
    obtain ⟨n, q, h⟩ := (s.st.turnedTo w).roundWon_frame w true
    exact answers_of_run rfl ha ((Station.holdSlotEnd_ordinary hm hd).trans h) ⟨rfl, rfl, rfl⟩
  · have hd : s.st.decision u o hold = .free := by
      rw [Station.decision, show (hold || s.st.marksHold) = false from hh]
      exact decideRound_of_noMark hu ho
    exact answers_of_run rfl ha (Station.holdSlotEnd_free hm hd) ⟨rfl, rfl⟩

/-- R45: a round that another station wins, or nobody, whatever the reason. -/
theorem loses_of_decision {s : State} {u o : W32} {hold : Bool} {e : OutEntry} (ha : s.Awake) (hm : s.st.lkc.medium = .round)
    (hc : s.st.entryAt .candidate = some e) (hu : s.st.decision u o hold ≠ .urgent s.st.cfl.node)
    (ho : s.st.decision u o hold ≠ .ordinary s.st.cfl.node) :
    Answers (.holdSlotEnd u o hold) s fun t =>
      t.st.lkc.outbound = s.st.lkc.backFrom .candidate ∧ t.st.lkc.objections = s.st.lkc.objections ∧
      (e.withdrawn = false → { e with place := .queued } ∈ t.st.lkc.outbound) ∧
        ∀ x ∈ t.st.lkc.outbound, x.place ≠ .candidate := by
  obtain ⟨hq, hn⟩ := Station.holdSlotEnd_lost hm hu ho
  obtain ⟨hmem, hplace⟩ := find_place hc
  refine answers_of_run rfl ha rfl ⟨hq, hn, fun hw => ?_, fun x hx => ?_⟩
  · rw [hq]
    exact mem_backFrom.mpr (.inr ⟨e, hmem, hplace, hw, rfl⟩)
  · rw [hq] at hx
    exact place_ne_of_mem_backFrom (by decide) hx

/-- Settles O11: a win puts the candidate on the wire; each way of losing is a decision for another node, or for none. -/
theorem winnerPutsCandidateOnWire : Obligations.WinnerPutsCandidateOnWire := by
  refine ⟨fun s u o hold e ha hm hc he hl => ?_, fun s o e ha hm hc he hh hl => ?_,
    fun s u o hold e ha hm hc => ?_⟩
  · obtain ⟨hmem, hplace⟩ := find_place hc
    have hd : s.st.decision u o hold = .urgent s.st.cfl.node := by
      refine decideRound_of_urgent (Station.slotMarked_own hc he u) fun v hv => ?_
      by_contra hmark
      rcases Station.marked_of_or_ownMarks (Bool.not_eq_false _ ▸ hmark) with h | h
      · exact absurd hv (not_lt.mpr (hl v h))
      · exact absurd hv (h ▸ lt_irrefl _)
    exact answers_of_run rfl ha ((Station.holdSlotEnd_urgent hm hd).trans (Station.roundWon_own rfl hc false))
      ⟨rfl, mem_putOnWire hmem hplace, putOnWire_wins s.st.lkc _ rfl rfl⟩
  · obtain ⟨hmem, hplace⟩ := find_place hc
    have hd : s.st.decision 0 o false = .ordinary s.st.cfl.node := by
      rw [Station.decision, hh, Station.ownMarks_otherWindow hc (by simp [he])]
      refine decideRound_of_ordinary (fun v => marked_zero) (Station.slotMarked_own hc he o) fun v hv => ?_
      rcases Station.marked_of_or_ownMarks hv with h | rfl
      · exact hl v h
      · exact le_rfl
    have hown := Station.roundWon_own (st := s.st.turnedTo s.st.cfl.node) rfl hc true
    exact answers_of_run rfl ha ((Station.holdSlotEnd_ordinary hm hd).trans hown)
      ⟨rfl, mem_putOnWire hmem hplace, rfl, putOnWire_wins s.st.lkc _ rfl rfl⟩
  · intro loses ordinary
    have notUrgent : ordinary → s.st.decision u o hold ≠ .urgent s.st.cfl.node := by
      rintro ⟨he, hu⟩ hd
      have hmark := (decideRound_eq_urgent hd).1
      rw [Station.ownMarks_otherWindow hc (by simp [he]), marked_or, hu, marked_zero] at hmark
      cases hmark
    have marked_left : ∀ {m m' : W32} {w : Node}, slotMarked m w = true → slotMarked (m ||| m') w = true := fun h => by
      simp [marked_or, h]
    have notOrdinary : ∀ w, slotMarked u w → s.st.decision u o hold ≠ .ordinary s.st.cfl.node := fun w hw hd => by
      have := (decideRound_eq_ordinary hd).1 w
      rw [marked_left hw] at this
      cases this
    refine ⟨fun w hw hlt => ?_, fun w hw ho => ?_, fun ho hh => ?_, fun w hw ho hlt => ?_⟩
    · exact loses_of_decision ha hm hc
        (fun hd => absurd hlt (not_lt.mpr ((decideRound_eq_urgent hd).2 w (marked_left hw)))) (notOrdinary w hw)
    · exact loses_of_decision ha hm hc (notUrgent ho) (notOrdinary w hw)
    · refine loses_of_decision ha hm hc (notUrgent ho) fun hd => ?_
      obtain ⟨-, hnone, -, -⟩ := decideRound_eq_ordinary hd
      rcases hh with hh | hh <;> simp [hh] at hnone
    · refine loses_of_decision ha hm hc (notUrgent ho) fun hd => ?_
      obtain ⟨-, -, -, hl⟩ := decideRound_eq_ordinary hd
      exact absurd hlt (not_lt.mpr (hl w (marked_left hw)))

/-- Settles O9: the round-start mark, the station's own marks, and the ways a round leaves the medium FREE. -/
theorem roundsBeginAndLeaveTheMediumFree : Obligations.RoundsBeginAndLeaveTheMediumFree := by
  refine ⟨fun s e es ha hm hl hq => ?_, fun s ha hm hn => ?_, fun st => ?_, fun s ha hm => ?_, fun s ha hm => ?_⟩
  · have hdrive : s.st.drivesRoundStart = true := Station.drivesRoundStart_iff.mpr ⟨hl, hm, by simp [hq]⟩
    refine next_of_run rfl ha ?_
    simp [Station.roundStart, Station.modLkc, Station.takeCandidate, hm, hdrive, hq]
  · have hdrive : s.st.drivesRoundStart = false := by
      rw [Bool.eq_false_iff, ne_eq, Station.drivesRoundStart_iff]
      rintro ⟨hl, -, hq⟩
      exact hn.elim (· hl) hq
    refine next_of_run rfl ha ?_
    simp [Station.roundStart, Station.modLkc, hm, hdrive]
  · exact ⟨Station.drivesRoundStart_iff, fun urgent n => Station.slotMarked_ownMarks, Station.marksHold_iff⟩
  · refine next_of_run rfl ha ?_
    simp [Station.frameStartLimit, Station.modLkc, Station.freeMedium, hm, returnEntries_eq]
  · refine next_of_run rfl ha ?_
    simp [Station.holdWaitEnd, Station.modLkc, hm]

end Sys2Proof.Machine
end

section
/-! PROOFS. Frames (R38, R40, R46): the bytes of a frame read back, whose bytes are on the wire, and how a frame that has
ended is judged. -/

namespace Sys2Proof.Machine

/-! ### A frame reads back from its bytes (R196, R197) -/

theorem be16_eq (x : W16) : be16 x = [x.extractLsb' 8 8, x.extractLsb' 0 8] := rfl

theorem be32_eq (x : W32) :
    be32 x = [x.extractLsb' 24 8, x.extractLsb' 16 8, x.extractLsb' 8 8, x.extractLsb' 0 8] := rfl

theorem readBody_bytes (b : Body) : readBody b.kind b.bytes = some b := by
  cases b <;> simp [readBody, Body.kind, Body.bytes, SocketReport.bytes, JoinSocket.bytes, readSocketReport, readJoinSocket,
    word16, word32, byteAt, be16_eq, be32_eq, join16_extract, join32_extract]

theorem Body.length_bytes_le (b : Body) : b.bytes.length ≤ 40 := by
  cases b <;> simp [Body.bytes, SocketReport.bytes, JoinSocket.bytes]

theorem readFrame_encode (f : Frame) : readFrame f.encode = some f := by
  have hlen := f.body.length_bytes_le
  have hbytes : f.body.bytes.length = (codeOf f.body.bytes.length).toNat := by
    simp [codeOf, Nat.mod_eq_of_lt (show f.body.bytes.length < 256 by omega)]
  obtain ⟨c1, c2, hcode, hcrc⟩ : ∃ c1 c2 : Byte, be16 (crc16 f.covered) = [c1, c2] ∧ crc16 f.covered = c1 ++ c2 :=
    ⟨_, _, rfl, (join16_extract _).symm⟩
  have hwhole := (readFrame_whole (sender := f.sender) (kind := f.body.kind) (run := f.run) hbytes (hbytes ▸ hlen)).trans
    (if_pos hcrc)
  rw [Frame.encode, hcode]
  exact hwhole.trans (by rw [readBody_bytes, Option.map_some])

namespace Station

variable {st : Station} {e : OutEntry} {bytes : List Byte}

/-! ### Whose bytes are on the wire (R45, R49; log 10) -/

theorem wireBytes_seen (h : st.driving = false) (bytes : List Byte) : st.wireBytes bytes = bytes := by
  unfold driving at h
  unfold wireBytes
  cases hw : st.entryAt .onWire with
  | none => rfl
  | some e => simp [hw] at h; simp [h]

theorem wireBytes_own (he : st.entryAt .onWire = some e) (hs : st.lkc.stopped = false) (bytes : List Byte) :
    st.wireBytes bytes = (st.sentFrame e).encode := by
  simp [wireBytes, he, hs]

theorem driving_onWire (he : st.entryAt .onWire = some e) : st.driving = !st.lkc.stopped := by simp [driving, he]

theorem driving_none (he : st.entryAt .onWire = none) : st.driving = false := by simp [driving, he]

/-! ### The end of a frame (R46) -/

/-- The mark of checks 1 to 5: a frame that cannot be read, or one the station rejects. -/
def judges (st : Station) : Option Frame → Bool
  | none => true
  | some f => st.rejects f

/-- A frame followed to its end, at a station that is not in LISTEN. -/
theorem endFrame_judged (hl : st.lkc.link ≠ .listen) (hm : st.lkc.medium = .frame) (f : Option Frame) :
    st.endFrame f = { st with lkc := { st.lkc with medium := .objection, followed := f, mark := st.judges f } } := by
  have hlink : (st.lkc.link != .listen) = true := bne_iff_ne.mpr hl
  cases f <;> simp [endFrame, modLkc, ordinaryRound_known, judges, hm, hlink]

/-- A station in LISTEN marks no slot (R40). -/
theorem endFrame_listen (hl : st.lkc.link = .listen) (f : Option Frame) : st.endFrame f = { st with lkc := { st.lkc with
    medium := .objection, ordinary := ordinaryRound st.lkc f, followed := f, mark := false } } := by
  simp [endFrame, modLkc, hl]

theorem frameEnd_frame (hm : st.lkc.medium = .frame) (bytes : List Byte) :
    frameEnd bytes st = st.endFrame (readFrame (st.wireBytes bytes)) := by
  simp [frameEnd, follows, hm]

/-- The first frame a station in LISTEN follows (R40; log 9). -/
theorem frameEnd_unknown (hr : st.cfl.stage = .running) (hl : st.lkc.link = .listen) (hm : st.lkc.medium = .unknown)
    (bytes : List Byte) : frameEnd bytes st = st.endFrame (readFrame (st.wireBytes bytes)) := by
  simp [frameEnd, follows, started, hr, hl, hm]

/-- A frame of another node, judged. -/
theorem frameEnd_seen (hl : st.lkc.link ≠ .listen) (hm : st.lkc.medium = .frame) (hd : st.driving = false)
    (bytes : List Byte) : frameEnd bytes st = { st with lkc := { st.lkc with
      medium := .objection, followed := readFrame bytes, mark := st.judges (readFrame bytes) } } := by
  rw [frameEnd_frame hm, wireBytes_seen hd, endFrame_judged hl hm]

/-- The station's own frame, judged as any other. -/
theorem frameEnd_own (hl : st.lkc.link ≠ .listen) (hm : st.lkc.medium = .frame) (he : st.entryAt .onWire = some e)
    (hs : st.lkc.stopped = false) (bytes : List Byte) : frameEnd bytes st = { st with lkc := { st.lkc with
      medium := .objection, followed := some (st.sentFrame e), mark := st.rejects (st.sentFrame e) } } := by
  rw [frameEnd_frame hm, wireBytes_own he hs, readFrame_encode, endFrame_judged hl hm]
  rfl

end Station

/-! ### The statements -/

/-- A frame of another node whose bytes are no frame is bad. -/
theorem frameEnd_bad {s : State} {bytes : List Byte} (ha : s.Awake) (hl : s.st.lkc.link ≠ .listen)
    (hm : s.st.lkc.medium = .frame) (hd : s.st.driving = false) (hr : readFrame bytes = none) :
    exec (.frameEnd bytes) s = .next (s.upd fun st => { st with lkc := { st.lkc with
      medium := .objection, followed := none, mark := true } }) := by
  refine next_of_run rfl ha ((Station.frameEnd_seen hl hm hd bytes).trans ?_)
  rw [hr]
  rfl

/-- Settles O12: each check of R46 in its order, on the bytes. -/
theorem frameIsJudgedInOrder : Obligations.FrameIsJudgedInOrder := by
  refine ⟨fun s bytes ha hl hm hd => ?_, fun s bytes ha hl hm hd => ?_, fun s bytes e ha hl hm he hs => ?_,
    fun s ha hl hm => ?_⟩
  · refine next_of_run rfl ha ((Station.frameEnd_seen hl hm hd bytes).trans ?_)
    cases readFrame bytes <;> rfl
  · have bad {bs : List Byte} := frameEnd_bad (bytes := bs) ha hl hm hd
    refine ⟨fun h => bad (readFrame_short (by omega)), fun sender kind run len rest hb => ?_⟩
    subst hb
    have hdecl : declaredLength (sender :: kind :: run :: len :: rest) = len.toNat := rfl
    refine ⟨fun h => bad (readFrame_long (hdecl ▸ h)), fun h => bad (readFrame_short ?_),
      fun body c1 c2 hrest hbody hlen => ?_⟩
    · rw [hdecl]
      simp only [List.length_cons]
      omega
    · subst hrest
      have hwhole := readFrame_whole (sender := sender) (kind := kind) (run := run) (c1 := c1) (c2 := c2) hbody hlen
      refine ⟨fun hc => bad ?_, fun hc hk => bad ?_, fun hc hk => ?_⟩
      · rw [hwhole, if_neg hc]
      · rw [hwhole, if_pos hc, readBody_unknown (hbody ▸ hk), Option.map_none]
      · obtain ⟨x, hx, hkind, hbytes⟩ := readBody_known (hbody ▸ hk)
        exact ⟨_, by rw [hwhole, if_pos hc, hx, Option.map_some], rfl, rfl, hkind, hbytes⟩
  · refine next_of_run rfl ha ((Station.frameEnd_own hl hm he hs bytes).trans ?_)
    rfl
  · refine next_of_run rfl ha ?_
    simp only [Station.earlyEnd, Station.follows, hm]
    exact Station.endFrame_judged hl hm none

end Sys2Proof.Machine
end

section
/-! PROOFS. The objection slot (R40, R44, R47 to R51): what it leaves at a station in LISTEN, at the sender and at the
others. -/

namespace Sys2Proof.Machine

namespace Station

variable {st : Station} {e d : OutEntry} {f : Frame} {n : Node}

/-! ### The rotating ID (R44) and the number of another node (R51) -/

theorem modLkc_alignRotating (ordinary : Bool) (f : Frame) :
    st.modLkc (alignRotating ordinary f) = st.turnedTo (if ordinary then rotatingOf f.sender else st.lkc.rotating) := by
  cases ordinary <;> rfl

/-- R41: what a station that was ACTIVE is in MUTE. -/
def mutedBy (st : Station) (c : OwnFault) : Station :=
  { st with
    lkc := { st.lkc with link := .mute, ownFlt := some 10 }
    rpu := { st.rpu with ownFault := c, muted := true }
    stc := { st.stc with inbox := st.stc.inbox ++ [.mute] } }

theorem codeOf_node_inj {m n : Node} (h : codeOf m.val = codeOf n.val) : m = n := by
  rw [← rotatingOf_node m, ← rotatingOf_node n]
  exact congrArg rotatingOf h

theorem duplicateCheck_own : st.duplicateCheck f true = st := by simp [duplicateCheck]

theorem duplicateCheck_other (hs : f.sender = BitVec.ofNat 8 n.val) (hn : n ≠ st.cfl.node) (own : Bool) :
    st.duplicateCheck f own = st := by
  rw [duplicateCheck, if_neg]
  rintro ⟨-, hc⟩
  exact hn (codeOf_node_inj (hs.symm.trans hc))

/-- R51 from ACTIVE: the station mutes. -/
theorem duplicateCheck_active (hs : f.sender = BitVec.ofNat 8 st.cfl.node.val) (hl : st.lkc.link = .active) :
    st.duplicateCheck f false = st.mutedBy .duplicate := by
  rw [duplicateCheck, if_pos ⟨rfl, hs⟩, if_pos hl]
  exact enterMute_active hl _

/-- R51 in MUTE: FLT is asserted anew. -/
theorem duplicateCheck_mute (hs : f.sender = BitVec.ofNat 8 st.cfl.node.val) (hl : st.lkc.link = .mute) :
    st.duplicateCheck f false = { st with
      lkc := { st.lkc with ownFlt := some 10 }, rpu := { st.rpu with ownFault := .duplicate } } := by
  rw [duplicateCheck, if_pos ⟨rfl, hs⟩]
  simp [hl, assertFlt, Config.fltAssertMs]

/-! ### The ways a slot ends (R47, R48) -/

theorem objectionSlotEnd_listen (hm : st.lkc.medium = .objection) (hl : st.lkc.link = .listen) (marked : Bool) :
    objectionSlotEnd marked st = (st.leaveListen !(marked || st.lkc.mark)).modLkc freeMedium := by
  simp only [objectionSlotEnd, hm, hl, if_true]

theorem leaveListen_changes (clean : Bool) : st.leaveListen clean = { st with lkc := { st.lkc with
    link := .active, rotating := (st.leaveListen clean).lkc.rotating } } := by
  cases hf : st.lkc.followed with
  | none => simp only [leaveListen, modLkc, hf]
  | some f => cases clean <;> cases ho : st.lkc.ordinary <;> simp [leaveListen, modLkc, alignRotating, hf, ho]

theorem leaveListen_rotating_stays {clean : Bool} (h : clean = false ∨ st.lkc.ordinary = false) :
    (st.leaveListen clean).lkc.rotating = st.lkc.rotating := by
  cases hf : st.lkc.followed with
  | none => simp [leaveListen, hf]
  | some f => rcases h with h | h <;> simp [leaveListen, alignRotating, hf, h]

theorem leaveListen_rotating_set (hf : st.lkc.followed = some f) (ho : st.lkc.ordinary = true)
    (hs : f.sender = BitVec.ofNat 8 n.val) : (st.leaveListen true).lkc.rotating = n := by
  simp [leaveListen, alignRotating, hf, ho, hs, rotatingOf_node]

/-- After a slot in which this station marked nothing, the mark is as it was. -/
theorem modLkc_freeMedium (hk : st.lkc.mark = false) : st.modLkc freeMedium = { st with lkc := { st.lkc with
    medium := .free, ordinary := false, followed := none, stopped := false } } := by
  simp [modLkc, freeMedium, hk]

/-- A frame at the tail of the inbound queue (R47). -/
def received (st : Station) (f : Frame) (own : Bool) : Station :=
  { st with lkc := { st.lkc with inbound := st.lkc.inbound ++ [.frame f own] } }

theorem objectionSlotEnd_clean (hm : st.lkc.medium = .objection) (hl : st.lkc.link ≠ .listen) (hk : st.lkc.mark = false)
    (hf : st.lkc.followed = some f) : objectionSlotEnd false st =
      ((((st.received f st.driving).ownOutcome true).turnedTo (if st.lkc.ordinary then rotatingOf f.sender
        else ((st.received f st.driving).ownOutcome true).lkc.rotating)).duplicateCheck f st.driving).modLkc freeMedium := by
  rw [← modLkc_alignRotating]
  simp [objectionSlotEnd, cleanSlot, received, modLkc, hm, hl, hk, hf]

theorem objectionSlotEnd_objected {marked : Bool} (hm : st.lkc.medium = .objection) (hl : st.lkc.link ≠ .listen)
    (hk : marked = true ∨ st.lkc.mark = true) : objectionSlotEnd marked st = (st.ownOutcome false).modLkc freeMedium := by
  have hmark : (marked || st.lkc.mark) = true := by rcases hk with h | h <;> simp [h]
  simp [objectionSlotEnd, hm, hl, hmark]

/-! ### At the sender, published (R47, R55, R191) -/

theorem onWireIs_of_entry (he : st.entryAt .onWire = some e) (p : Body → Bool) : st.onWireIs p = p e.body := by
  simp [onWireIs, he]

theorem ownOutcome_none (he : st.entryAt .onWire = none) (clean : Bool) : st.ownOutcome clean = st := by
  simp [ownOutcome, he]

theorem ownOutcome_published (he : st.entryAt .onWire = some e) (hs : st.lkc.stopped = false) :
    st.ownOutcome true = st.publish := by
  simp [ownOutcome, he, hs]

theorem ownOutcome_counted {clean : Bool} (he : st.entryAt .onWire = some e) (hc : clean = false ∨ st.lkc.stopped = true) :
    st.ownOutcome clean = st.countObjection := by
  rcases hc with h | h <;> simp [ownOutcome, he, h]

theorem isState_of_inAnnouncePlace {b : Body} (h : inAnnouncePlace b = true) : isState b = false := by
  revert h
  cases b <;> simp

theorem inAnnouncePlace_of_isState {b : Body} (h : isState b = true) : inAnnouncePlace b = false := by
  cases hb : inAnnouncePlace b with
  | false => rfl
  | true => exact absurd h (by simp [isState_of_inAnnouncePlace hb])

/-- The queue without the entry on the wire, its objection count begun anew (R47). -/
def published (st : Station) : Station :=
  { st with lkc := { st.lkc with outbound := st.lkc.outbound.filter fun e => e.place != .onWire, objections := 0 } }

theorem publish_plain (he : st.entryAt .onWire = some e) (ha : inAnnouncePlace e.body = false)
    (hs : isState e.body = false) : st.publish = st.published := by
  simp only [publish, onWireIs_of_entry he, ha, hs]
  rfl

theorem publish_announcePlace (he : st.entryAt .onWire = some e) (ha : inAnnouncePlace e.body = true) :
    st.publish = st.published.placeDeferredJoin := by
  simp only [publish, onWireIs_of_entry he, ha, isState_of_inAnnouncePlace ha]
  rfl

theorem publish_state (he : st.entryAt .onWire = some e) (hs : isState e.body = true) :
    st.publish = st.published.settlePendingQuery := by
  simp only [publish, onWireIs_of_entry he, hs, inAnnouncePlace_of_isState hs]
  rfl

theorem placeDeferredJoin_none (hd : st.lkc.deferredJoin = none) : st.placeDeferredJoin = st := by
  simp [placeDeferredJoin, hd]

theorem placeDeferredJoin_some (hd : st.lkc.deferredJoin = some d) (hu : urgentBody d.body = false) :
    st.placeDeferredJoin =
      { st with lkc := { st.lkc with outbound := st.lkc.outbound ++ [d], deferredJoin := none } } := by
  simp [placeDeferredJoin, hd, insertEntry, hu]

theorem settlePendingQuery_none (hq : st.rpu.queryPending = false) : st.settlePendingQuery = st := by
  simp [settlePendingQuery, hq]

theorem settlePendingQuery_pending (hq : st.rpu.queryPending = true) : st.settlePendingQuery = { st with
    lkc := { st.lkc with outbound := st.lkc.outbound ++ [newEntry0 (.state st.stateReport)] }
    rpu := { st.rpu with queryPending := false } } := by
  rw [settlePendingQuery, if_pos hq, placeState, placeFrame_ordinary _ _ (by rfl)]
  rfl

/-- What a publication can change. -/
theorem publish_changes (he : st.entryAt .onWire = some e) :
    let t := st.publish
    t = { st with
      lkc := { st.lkc with objections := 0, outbound := t.lkc.outbound, deferredJoin := t.lkc.deferredJoin }
      rpu := { st.rpu with queryPending := t.rpu.queryPending } } := by
  cases ha : inAnnouncePlace e.body with
  | true =>
    rw [publish_announcePlace he ha]
    cases hd : st.lkc.deferredJoin with
    | none => rw [placeDeferredJoin_none (st := st.published) hd]; rfl
    | some d => simp only [placeDeferredJoin, published, hd]
  | false =>
    cases hs : isState e.body with
    | false => rw [publish_plain he ha hs]; rfl
    | true =>
      rw [publish_state he hs]
      cases hq : st.rpu.queryPending with
      | false => rw [settlePendingQuery_none (st := st.published) hq]; rfl
      | true => rw [settlePendingQuery_pending (st := st.published) hq]; rfl

/-- R191: a pending query is answered by the STATE published, and by no other frame. -/
theorem publish_queryPending (he : st.entryAt .onWire = some e) :
    st.publish.rpu.queryPending = if isState e.body then false else st.rpu.queryPending := by
  cases hs : isState e.body with
  | true =>
    rw [publish_state he hs]
    cases hq : st.rpu.queryPending with
    | false => rw [settlePendingQuery_none (st := st.published) hq]; exact hq
    | true => rw [settlePendingQuery_pending (st := st.published) hq]; rfl
  | false =>
    cases ha : inAnnouncePlace e.body with
    | false => rw [publish_plain he ha hs]; rfl
    | true =>
      rw [publish_announcePlace he ha]
      unfold placeDeferredJoin
      cases st.published.lkc.deferredJoin <;> rfl

/-- R55: with another frame than ANNOUNCE or JOIN the deferred JOIN waits on. -/
theorem publish_deferredJoin (he : st.entryAt .onWire = some e) (ha : inAnnouncePlace e.body = false) :
    st.publish.lkc.deferredJoin = st.lkc.deferredJoin := by
  cases hs : isState e.body with
  | false => rw [publish_plain he ha hs]; rfl
  | true =>
    rw [publish_state he hs]
    cases hq : st.rpu.queryPending with
    | false => rw [settlePendingQuery_none (st := st.published) hq]; rfl
    | true => rw [settlePendingQuery_pending (st := st.published) hq]; rfl

/-- A clean slot at the sender. -/
theorem objectionSlotEnd_ownClean (hm : st.lkc.medium = .objection) (hl : st.lkc.link = .active)
    (hk : st.lkc.mark = false) (hs : st.lkc.stopped = false) (hf : st.lkc.followed = some f)
    (he : st.entryAt .onWire = some e) : objectionSlotEnd false st =
      ((st.received f true).publish.turnedTo
        (if st.lkc.ordinary then rotatingOf f.sender else st.lkc.rotating)).modLkc freeMedium := by
  have hd : st.driving = true := by rw [driving_onWire he, hs]; rfl
  rw [objectionSlotEnd_clean hm (by simp [hl]) hk hf, hd, duplicateCheck_own,
    ownOutcome_published (st := st.received f true) he hs]
  rw [publish_changes (st := st.received f true) he]
  rfl

/-! ### At the sender, objected (R48 to R50, R193) -/

/-- An objection to the frame of `e` counted, before the limit of R50 is looked at. -/
def objected (st : Station) (e : OutEntry) : Station :=
  { st with
    lkc := { st.lkc with objections := min 3 (st.lkc.objections + 1), outbound := st.lkc.countedBack }
    rpu := { st.rpu with
      objectionTotal := if st.rpu.objectionTotal < 65535 then st.rpu.objectionTotal + 1 else st.rpu.objectionTotal
      queryPending := if isState e.body then false else st.rpu.queryPending } }

theorem satSucc_limit {k n : Nat} (h : n ≤ k) : satSucc k n = min k (n + 1) := by
  unfold satSucc
  split <;> omega

theorem countObjection_eq (he : st.entryAt .onWire = some e) (hl : st.lkc.link = .active) (ho : st.lkc.objections ≤ 3) :
    st.countObjection =
      if 3 ≤ st.lkc.objections + 1 then (st.objected e).enterMute .objectionLimit else st.objected e := by
  have hn : satSucc Config.objectionLimit st.lkc.objections = min 3 (st.lkc.objections + 1) := satSucc_limit ho
  have hlimit : (min 3 (st.lkc.objections + 1) = Config.objectionLimit ∧ st.lkc.link = .active) ↔
      3 ≤ st.lkc.objections + 1 := (and_iff_left hl).trans min_eq_left_iff
  simp only [countObjection, hn, hlimit, keepObjected_eq, onWireIs_of_entry he]
  cases hs : isState e.body <;> simp only [objected, hs] <;> rfl

theorem countObjection_below (he : st.entryAt .onWire = some e) (hl : st.lkc.link = .active)
    (ho : st.lkc.objections + 1 < 3) : st.countObjection = st.objected e := by
  rw [countObjection_eq he hl (by omega), if_neg (by omega)]

/-- R50: the third objection in a row mutes the sender. -/
theorem countObjection_third (he : st.entryAt .onWire = some e) (hl : st.lkc.link = .active) (hle : st.lkc.objections ≤ 3)
    (ho : 3 ≤ st.lkc.objections + 1) : st.countObjection = (st.objected e).mutedBy .objectionLimit := by
  rw [countObjection_eq he hl hle, if_pos ho]
  exact enterMute_active (st := st.objected e) hl _

/-- An objected slot at the sender. -/
theorem objectionSlotEnd_ownObjected {marked : Bool} (hm : st.lkc.medium = .objection) (hl : st.lkc.link = .active)
    (hk : marked = true ∨ st.lkc.mark = true) (he : st.entryAt .onWire = some e) :
    objectionSlotEnd marked st = st.countObjection.modLkc freeMedium := by
  rw [objectionSlotEnd_objected hm (by simp [hl]) hk, ownOutcome_counted he (.inl rfl)]

theorem enterMute_rotating (c : OwnFault) : (st.enterMute c).lkc.rotating = st.lkc.rotating := by
  unfold enterMute assertFlt
  split <;> rfl

theorem countObjection_rotating : st.countObjection.lkc.rotating = st.lkc.rotating := by
  cases hs : st.onWireIs isState <;> simp only [countObjection, hs] <;> split <;> simp [enterMute_rotating, dropPendingQuery]

/-- A slot that is clean all the same at a station that readback stopped: the attempt counts, and the frame of the other
sender is received (R49, R51; log 7). -/
theorem objectionSlotEnd_stopped (hm : st.lkc.medium = .objection) (hl : st.lkc.link = .active)
    (hk : st.lkc.mark = false) (hs : st.lkc.stopped = true) (hf : st.lkc.followed = some f)
    (he : st.entryAt .onWire = some e) (hn : f.sender = BitVec.ofNat 8 n.val) : objectionSlotEnd false st =
      (((st.received f false).countObjection.turnedTo
        (if st.lkc.ordinary then n else st.lkc.rotating)).duplicateCheck f false).modLkc freeMedium := by
  have hd : st.driving = false := by rw [driving_onWire he, hs]; rfl
  rw [objectionSlotEnd_clean hm (by simp [hl]) hk hf, hd,
    ownOutcome_counted (st := st.received f false) he (.inr hs), countObjection_rotating, hn, rotatingOf_node]
  rfl

end Station

/-- R48: after an objected slot nothing is on the wire. -/
theorem place_ne_of_mem_countedBack {l : Lkc} {x : OutEntry} (h : x ∈ l.countedBack) : x.place ≠ .onWire := by
  rw [← keepObjected_eq] at h
  exact mem_keepObjected_place h

/-- R48: the objected entry is kept and counted. -/
theorem mem_countedBack {l : Lkc} {e : OutEntry} (h : e ∈ l.outbound) (hp : e.place = .onWire) (hw : e.withdrawn = false) :
    { e with place := .queued, counted := true } ∈ l.countedBack := by
  rw [← keepObjected_eq]
  exact keepObjected_mem h hp hw

/-! ### The statements -/

/-- What a slot's end leaves at a station in LISTEN. -/
theorem objectionSlotEnd_listen_changes {st : Station} (hm : st.lkc.medium = .objection) (hl : st.lkc.link = .listen)
    (marked : Bool) : Station.objectionSlotEnd marked st = { st with lkc := { st.lkc with
      link := .active, medium := .free, ordinary := false, followed := none, mark := false, stopped := false
      rotating := (Station.objectionSlotEnd marked st).lkc.rotating } } := by
  rw [Station.objectionSlotEnd_listen hm hl, Station.leaveListen_changes]
  rfl

/-- Settles O8: the idle interval, the objection slot and the first frame followed, in LISTEN. -/
theorem listenEndsAtIdleOrSlot : Obligations.ListenEndsAtIdleOrSlot := by
  refine ⟨fun s hr hl hrst => ?_, fun s marked ha hl hm => ?_, fun s bytes hr hl hm hd => ?_⟩
  · refine next_of_run rfl (by simp [State.Awake, hr]) ?_
    simp [Station.idleInterval, Station.started, Station.modLkc, Station.freeMedium, hr, hl, hrst]
  · refine answers_of_run rfl ha rfl
      ⟨objectionSlotEnd_listen_changes hm hl marked, fun h => ?_, fun f n h hk ho hf hn => ?_⟩
    · rw [Station.objectionSlotEnd_listen hm hl]
      exact Station.leaveListen_rotating_stays (h.imp_left fun h => by simp [h])
    · rw [Station.objectionSlotEnd_listen hm hl, h, hk]
      exact Station.leaveListen_rotating_set hf ho hn
  · refine next_of_run rfl (by simp [State.Awake, hr]) ?_
    rw [Station.frameEnd_unknown hr hl hm, Station.wireBytes_seen hd, Station.endFrame_listen hl]
    cases hf : readFrame bytes with
    | none => simp [Station.ordinaryRound, hm]
    | some f =>
      rw [Station.ordinaryRound_unknown hm]
      obtain ⟨sender, run, body⟩ := f
      cases body <;> rfl

/-- A clean slot with a frame of another node, nothing of the station's own being on the wire. -/
theorem objectionSlotEnd_foreign {st : Station} {f : Frame} {n : Node} (hm : st.lkc.medium = .objection)
    (hl : st.lkc.link ≠ .listen) (hk : st.lkc.mark = false) (hf : st.lkc.followed = some f)
    (he : st.entryAt .onWire = none) (hs : f.sender = BitVec.ofNat 8 n.val) : Station.objectionSlotEnd false st =
      (((st.received f false).turnedTo (if st.lkc.ordinary then n else st.lkc.rotating)).duplicateCheck f false).modLkc
        Station.freeMedium := by
  rw [Station.objectionSlotEnd_clean hm hl hk hf, Station.driving_none he,
    Station.ownOutcome_none (st := st.received f false) he, hs, rotatingOf_node]
  rfl

/-- Settles O14: the frame is queued, and its sender compared with the station's own number. -/
theorem cleanForeignFrameIsQueued : Obligations.CleanForeignFrameIsQueued := by
  intro s f n ha hm hk hf he hs queued
  have slot (hl : s.st.lkc.link ≠ .listen) := objectionSlotEnd_foreign hm hl hk hf he hs
  refine ⟨fun hl hn => ?_, fun hl hn => ?_, fun hl hn => ?_⟩
  · refine next_of_run rfl ha ((slot hl).trans ?_)
    rw [Station.duplicateCheck_other (st := (s.st.received f false).turnedTo _) hs hn]
    rfl
  · subst hn
    refine next_of_run rfl ha ((slot (by simp [hl])).trans ?_)
    rw [Station.duplicateCheck_active (st := (s.st.received f false).turnedTo _) hs hl]
    rfl
  · subst hn
    refine next_of_run rfl ha ((slot (by simp [hl])).trans ?_)
    rw [Station.duplicateCheck_mute (st := (s.st.received f false).turnedTo _) hs hl]
    rfl

/-- Settles O15: the publication, and what it places behind the frame published. -/
theorem cleanOwnFrameIsPublished : Obligations.CleanOwnFrameIsPublished := by
  intro s f e ha hl hm hk hs hf he
  have he' : (s.st.received f true).entryAt .onWire = some e := he
  refine answers_of_run rfl ha (Station.objectionSlotEnd_ownClean hm hl hk hs hf he)
    ⟨?_, fun h => ?_, fun h => ?_, fun h => Station.publish_deferredJoin he' h, fun h => ?_, fun n h hn => ?_, ?_⟩
  · rw [Station.publish_changes he']
    exact Station.modLkc_freeMedium hk
  · exact (Station.publish_queryPending he').trans (by rw [h]; rfl)
  · exact (Station.publish_queryPending he').trans (by rw [h]; rfl)
  · exact if_neg (by simp [h])
  · exact (if_pos h).trans (by rw [hn, rotatingOf_node])
  · intro left
    refine ⟨fun h hst => ?_, fun d h hd hu => ?_, fun h hd => ?_, fun h => ⟨fun hq => ?_, fun hq => ?_⟩⟩
    · have hp := Station.publish_plain he' h hst
      exact ⟨congrArg (·.lkc.outbound) hp, congrArg (·.lkc.deferredJoin) hp⟩
    · have hp := (Station.publish_announcePlace he' h).trans (Station.placeDeferredJoin_some hd hu)
      exact ⟨congrArg (·.lkc.outbound) hp, congrArg (·.lkc.deferredJoin) hp⟩
    · have hp := (Station.publish_announcePlace he' h).trans (Station.placeDeferredJoin_none hd)
      exact ⟨congrArg (·.lkc.outbound) hp, (congrArg (·.lkc.deferredJoin) hp).trans hd⟩
    · exact congrArg (·.lkc.outbound) ((Station.publish_state he' h).trans (Station.settlePendingQuery_none hq))
    · exact congrArg (·.lkc.outbound) ((Station.publish_state he' h).trans (Station.settlePendingQuery_pending hq))

/-- Settles O16: the objection counted, below the limit and at it; the frame another sender went on with; the frames of
others; readback. -/
theorem objectedFrameStaysAndCounts : Obligations.ObjectedFrameStaysAndCounts := by
  refine ⟨fun s e marked ha hl hm he hk hle => ?_, fun s e f n ha hl hm he hs hk hf hn hle => ?_,
    fun s marked ha hl hm he hk => ?_, fun s ha hm hd => ?_⟩
  · obtain ⟨hmem, hplace⟩ := find_place he
    have kept : e.withdrawn = false → { e with place := .queued, counted := true } ∈ s.st.lkc.countedBack :=
      mem_countedBack hmem hplace
    have gone : ∀ x ∈ s.st.lkc.countedBack, x.place ≠ .onWire := fun x => place_ne_of_mem_countedBack
    have noState (h : Station.isState e.body = false) : (s.st.objected e).rpu.queryPending = s.st.rpu.queryPending :=
      if_neg (by simp [h])
    have answered (h : Station.isState e.body = true) : (s.st.objected e).rpu.queryPending = false := if_pos h
    have slot := Station.objectionSlotEnd_ownObjected hm hl hk he
    rcases Nat.lt_or_ge (s.st.lkc.objections + 1) 3 with hlt | hge
    · rw [Station.countObjection_below he hl hlt] at slot
      exact answers_of_run rfl ha slot ⟨rfl, rfl, kept, gone, noState, answered, fun _ => ⟨hl, rfl, rfl, rfl, rfl⟩,
        fun h => absurd hlt (not_lt.mpr h)⟩
    · rw [Station.countObjection_third he hl hle hge] at slot
      exact answers_of_run rfl ha slot ⟨rfl, rfl, kept, gone, noState, answered, fun h => absurd h (not_lt.mpr hge),
        fun _ => ⟨rfl, rfl, rfl, rfl, rfl⟩⟩
  · have he' : (s.st.received f false).entryAt .onWire = some e := he
    have slot := Station.objectionSlotEnd_stopped hm hl hk hs hf he hn
    rcases Nat.lt_or_ge (s.st.lkc.objections + 1) 3 with hlt | hge
    · rw [Station.countObjection_below he' hl hlt] at slot
      by_cases hnode : n = s.st.cfl.node
      · rw [Station.duplicateCheck_active (st := ((s.st.received f false).objected e).turnedTo _) (hnode ▸ hn) hl] at slot
        exact answers_of_run rfl ha slot ⟨Station.modLkc_freeMedium hk, fun _ => ⟨rfl, rfl, rfl, rfl, rfl⟩,
          fun h => absurd hnode h, fun h => absurd hnode h⟩
      · rw [Station.duplicateCheck_other (st := ((s.st.received f false).objected e).turnedTo _) hn hnode] at slot
        exact answers_of_run rfl ha slot ⟨Station.modLkc_freeMedium hk, fun h => absurd h hnode,
          fun _ _ => ⟨hl, rfl, rfl, rfl, rfl⟩, fun _ h => absurd hlt (not_lt.mpr h)⟩
    · rw [Station.countObjection_third he' hl hle hge] at slot
      by_cases hnode : n = s.st.cfl.node
      · rw [Station.duplicateCheck_mute (st := (((s.st.received f false).objected e).mutedBy _).turnedTo _) (hnode ▸ hn)
          rfl] at slot
        exact answers_of_run rfl ha slot ⟨Station.modLkc_freeMedium hk, fun _ => ⟨rfl, rfl, rfl, rfl, rfl⟩,
          fun h => absurd hnode h, fun h => absurd hnode h⟩
      · rw [Station.duplicateCheck_other (st := (((s.st.received f false).objected e).mutedBy _).turnedTo _) hn
          hnode] at slot
        exact answers_of_run rfl ha slot ⟨Station.modLkc_freeMedium hk, fun h => absurd h hnode,
          fun _ h => absurd h (not_lt.mpr hge), fun _ _ => ⟨rfl, rfl, rfl, rfl, rfl⟩⟩
  · refine next_of_run rfl ha ((Station.objectionSlotEnd_objected hm hl hk).trans ?_)
    rw [Station.ownOutcome_none he]
    rfl
  · exact next_of_run rfl ha (if_pos ⟨hm, hd⟩)

end Sys2Proof.Machine
end

section
/-! PROOFS. LRST and FLT (R53, R57 to R60): what the station asserts, and what an edge of either voids and places. -/

namespace Sys2Proof.Machine

namespace Station

variable {st : Station}

/-! ### The frame in flight, and the marker (R53, R58, R60) -/

/-- What is in flight is void: its entry is queued again or gone, and a pending query is answered. -/
theorem voidFrame_eq (st : Station) : st.voidFrame = { st with
    lkc := { st.lkc with outbound := st.lkc.backFrom .onWire }
    rpu := { st.rpu with queryPending := if st.onWireIs isState then false else st.rpu.queryPending } } := by
  simp only [voidFrame, modLkc, returnEntries_eq]
  cases hs : st.onWireIs isState <;> rfl

theorem mark_listen (hl : st.lkc.link = .listen) (m : Entry) : st.mark m = st := by
  simp [mark, modLkc, hl]

theorem mark_placed (hl : st.lkc.link ≠ .listen) (m : Entry) :
    st.mark m = { st with lkc := { st.lkc with inbound := placeMarker st.lkc.inbound m } } := by
  simp [mark, modLkc, hl]

/-- Placing a marker changes the inbound queue only. -/
theorem mark_changes (m : Entry) :
    st.mark m = { st with lkc := { st.lkc with inbound := (st.mark m).lkc.inbound } } := by
  by_cases hl : st.lkc.link = .listen
  · rw [mark_listen hl]
  · rw [mark_placed hl]

/-- R53: the marker merges with one of its kind at the tail. -/
theorem mark_inbound_merged {m : Entry} (h : m ∈ tailMarkers st.lkc.inbound) : (st.mark m).lkc.inbound = st.lkc.inbound := by
  by_cases hl : st.lkc.link = .listen
  · rw [mark_listen hl]
  · simp [mark_placed hl, placeMarker, h]

theorem mark_inbound_appended {m : Entry} (hl : st.lkc.link ≠ .listen) (h : m ∉ tailMarkers st.lkc.inbound) :
    (st.mark m).lkc.inbound = st.lkc.inbound ++ [m] := by
  simp [mark_placed hl, placeMarker, h]

/-- R53 at a station `u` with the link state and the inbound queue of `st`. -/
theorem mark_places {u : Station} (hlink : u.lkc.link = st.lkc.link) (hin : u.lkc.inbound = st.lkc.inbound) (m : Entry) :
    (st.lkc.link = .listen → (u.mark m).lkc.inbound = st.lkc.inbound) ∧
    (st.lkc.link ≠ .listen → m ∈ tailMarkers st.lkc.inbound → (u.mark m).lkc.inbound = st.lkc.inbound) ∧
    (st.lkc.link ≠ .listen → m ∉ tailMarkers st.lkc.inbound → (u.mark m).lkc.inbound = st.lkc.inbound ++ [m]) := by
  rw [← hlink, ← hin]
  exact ⟨fun hl => by rw [mark_listen hl], fun _ => mark_inbound_merged, mark_inbound_appended⟩

end Station

/-- R58: back from the wire and from the round, every entry is queued in its order, and what was withdrawn there is gone. -/
theorem returnEntries_all (q : List OutEntry) : Station.returnEntries .candidate (Station.returnEntries .onWire q) =
    (q.filter fun x => x.place == .queued || !x.withdrawn).map fun x => { x with place := .queued } := by
  unfold Station.returnEntries
  induction q with
  | nil => rfl
  | cons e q ih =>
    obtain ⟨run, body, place, withdrawn, counted⟩ := e
    cases place <;> cases withdrawn <;> simp [ih]

namespace Station

variable {st : Station}

/-! ### The edges (R58, R60) -/

/-- The link's starting values, in a state whose LRST has risen (R58). -/
def linkCleared (st : Station) : Station :=
  { st with
    lkc := { st.lkc with
      lrst := true, medium := .reset, rotating := 31, objections := 0, ordinary := false, followed := none, mark := false
      stopped := false, holdWait := none
      outbound := (st.lkc.outbound.filter fun x => x.place == .queued || !x.withdrawn).map fun x =>
        { x with place := .queued } }
    rpu := { st.rpu with queryPending := if st.onWireIs isState then false else st.rpu.queryPending } }

theorem lrstRising_running (hr : st.cfl.stage = .running) (hrst : st.lkc.lrst = false) :
    st.lrstRising = st.linkCleared.mark .linkReset := by
  simp only [lrstRising, resetLink, voidFrame_eq, modLkc, started, hr, hrst, if_true, ← returnEntries_eq, returnEntries_all,
    freeMedium]
  rfl

/-- R60: the frame in flight is void, and the medium FREE. -/
def frameVoided (st : Station) : Station :=
  { st with
    lkc := { freeMedium st.lkc with outbound := st.lkc.backFrom .onWire }
    rpu := { st.rpu with queryPending := if st.onWireIs isState then false else st.rpu.queryPending } }

theorem faultFrame_inFlight (hm : st.lkc.medium = .frame ∨ st.lkc.medium = .objection) : st.faultFrame = st.frameVoided := by
  rw [faultFrame, if_pos hm, voidFrame_eq]
  rfl

theorem faultFrame_none (hf : st.lkc.medium ≠ .frame) (ho : st.lkc.medium ≠ .objection) : st.faultFrame = st := by
  rw [faultFrame, if_neg]
  rintro (h | h)
  · exact hf h
  · exact ho h

/-- The state whose FLT has risen. -/
def fltRisen (st : Station) : Station := { st with lkc := { st.lkc with flt := true } }

theorem fltRising_running (hr : st.cfl.stage = .running) (hflt : st.lkc.flt = false) :
    st.fltRising = st.fltRisen.faultFrame.mark .benchFault := by
  simp [fltRising, fltRisen, modLkc, started, hr, hflt]

end Station

/-! ### The statements -/

/-- Settles O13: each drive by its cause and its timer. -/
theorem ownDrivesFollowTheirCauses : Obligations.OwnDrivesFollowTheirCauses := by
  refine ⟨fun s ha hl hm => ?_, fun s ha hl hm => ?_,
    fun s ha => ⟨?_, fun hn => ?_, fun n hn => ⟨fun hle => ?_, fun hlt => ?_⟩⟩,
    fun s n ha hl hn => ?_⟩
  · exact next_of_run rfl ha (if_pos ⟨hl, by rcases hm with h | h | h | h <;> rw [h] <;> rfl⟩)
  · exact next_of_run rfl ha (if_pos ⟨hl, by rw [hm]; rfl⟩)
  · exact next_of_run rfl ha rfl
  · exact next_of_run (g := id) rfl ha (if_neg (by rw [hn, Timer.ranOut_none]; decide))
  · exact next_of_run rfl ha (if_pos (by rw [hn, Timer.ranOut_some]; exact decide_eq_true hle))
  · exact next_of_run (g := id) rfl ha (if_neg (by rw [hn, Timer.ranOut_some]; simpa using hlt))
  · refine next_of_run rfl ha ?_
    simp [Station.mirrorCheckNotice, Station.assertFlt, Station.modLkc, Config.fltAssertMs, hn, hl]

/-- Settles O17: the link cleared, then the marker; the level alone during start-up; the release. -/
theorem linkResetEdgeClearsTheLink : Obligations.LinkResetEdgeClearsTheLink := by
  refine ⟨fun s hr hrst => ?_, fun s ha hr hrst => ?_, fun s ha hrst hown => ⟨fun hm => ?_, fun hm => ?_⟩⟩
  · refine answers_of_run rfl (by simp [State.Awake, hr]) (Station.lrstRising_running hr hrst)
      ⟨?_, fun h => ?_, fun h => ?_, Station.mark_places (st := s.st) (u := s.st.linkCleared) rfl rfl _⟩
    · rw [Station.mark_changes]
      rfl
    · rw [Station.mark_changes]
      exact if_neg (Bool.eq_false_iff.mp h)
    · rw [Station.mark_changes]
      exact if_pos h
  · refine next_of_run rfl ha ?_
    simp [Station.lrstRising, Station.started, Station.modLkc, hr, hrst]
  · refine next_of_run rfl ha ?_
    simp [Station.lrstReleased, Station.modLkc, Station.freeMedium, hrst, hown, hm]
  · refine next_of_run rfl ha ?_
    simp [Station.lrstReleased, Station.modLkc, hrst, hown, hm]

/-- Settles O18: with a frame in flight and with none, then the marker; the level alone during start-up; the release. -/
theorem benchFaultEdgeVoidsTheFrame : Obligations.BenchFaultEdgeVoidsTheFrame := by
  refine ⟨fun s hr hflt => ?_, fun s ha hr hflt => ?_, fun s ha hflt hown => ?_⟩
  · have edge := Station.fltRising_running hr hflt
    by_cases hm : s.st.lkc.medium = .frame ∨ s.st.lkc.medium = .objection
    · rw [Station.faultFrame_inFlight (st := s.st.fltRisen) hm] at edge
      refine answers_of_run rfl (by simp [State.Awake, hr]) edge ⟨?_, fun _ => ?_, fun hf ho => ?_,
        Station.mark_places (st := s.st) (u := s.st.fltRisen.frameVoided) rfl rfl _⟩
      · rw [Station.mark_changes]
        rfl
      · rw [Station.mark_changes]
        exact ⟨rfl, rfl, rfl, rfl, rfl, rfl, fun x => place_ne_of_mem_backFrom (by decide),
          fun x hx _ hp => mem_backFrom.mpr (.inl ⟨hx, hp⟩), fun h => if_neg (Bool.eq_false_iff.mp h), fun h => if_pos h⟩
      · exact absurd hm (by simp [hf, ho])
    · have hnone : s.st.lkc.medium ≠ .frame ∧ s.st.lkc.medium ≠ .objection := not_or.mp hm
      rw [Station.faultFrame_none (st := s.st.fltRisen) hnone.1 hnone.2] at edge
      refine answers_of_run rfl (by simp [State.Awake, hr]) edge ⟨?_, fun h => absurd h hm, fun _ _ => ?_,
        Station.mark_places (st := s.st) (u := s.st.fltRisen) rfl rfl _⟩
      · rw [Station.mark_changes]
        rfl
      · rw [Station.mark_changes]
        exact ⟨rfl, rfl, rfl, rfl, rfl, rfl, rfl⟩
  · refine next_of_run rfl ha ?_
    simp [Station.fltRising, Station.started, Station.modLkc, hr, hflt]
  · refine next_of_run rfl ha ?_
    simp [Station.fltReleased, Station.modLkc, hflt, hown]

end Sys2Proof.Machine
end

section
/-! PROOFS. The turn a socket takes in a notice that goes to every socket (chapter 3): what one turn writes, that each socket
finds its own part as it was, and what the four turns leave of the station. -/

namespace Sys2Proof.Machine

/-- What the STC does with one socket when it takes a notice: to the socket's part of the STC, the INC and the GCU, to the
outbound queue, and whether it ends the join late or hands the socket over. -/
structure SocketTurn where
  ctx : RunCtx → RunCtx
  inc : IncSocket → IncSocket := id
  gcu : GcuSocket → GcuSocket := id
  outbound : List OutEntry → List OutEntry := id
  late : Bool := false
  hands : Bool := false

namespace Station

/-- Socket `x` takes its turn. -/
def turn (st : Station) (x : Socket) (t : SocketTurn) : Station := { st with
  stc := { st.stc with ctx := st.stc.ctx.set x (t.ctx (st.ctx x)) }
  inc := { st.inc with
    sockets := st.inc.sockets.set x (t.inc (st.incSocket x))
    inbox := if t.late then keepLate x st.stcToOpen st.inc.inbox else st.inc.inbox }
  gcu := { st.gcu with sockets := st.gcu.sockets.set x (t.gcu (st.gcuSocket x)) }
  lkc := { st.lkc with outbound := t.outbound st.lkc.outbound }
  slu := { st.slu with inbox := if t.hands then st.slu.inbox ++ [.handOver x] else st.slu.inbox } }

/-- Every socket takes its turn. -/
def turns (st : Station) (T : Socket → SocketTurn) : Station := st.each fun x u => u.turn x (T x)

variable {st u : Station} {x y : Socket} {T : Socket → SocketTurn}

/-! ### What a socket finds when its turn comes -/

/-- The station `u` is to socket `x` what `st` is: whatever the socket's turn looks at is the same. -/
structure SameFor (st : Station) (x : Socket) (u : Station) : Prop where
  cfl : u.cfl = st.cfl
  bmr : u.bmr = st.bmr
  step : u.stc.step = st.stc.step
  slot : u.stc.slot = st.stc.slot
  inbox : u.stc.inbox = st.stc.inbox
  toBegin : u.inc.inbox.countP IncMsg.isRunOpened = st.inc.inbox.countP IncMsg.isRunOpened
  ctx : u.ctx x = st.ctx x
  incSocket : u.incSocket x = st.incSocket x
  gcuSocket : u.gcuSocket x = st.gcuSocket x

namespace SameFor

theorem refl (st : Station) (x : Socket) : st.SameFor x st := ⟨rfl, rfl, rfl, rfl, rfl, rfl, rfl, rfl, rfl⟩

/-- The turn of another socket leaves it so. -/
theorem turn (h : st.SameFor x u) (hy : x ≠ y) (t : SocketTurn) : st.SameFor x (u.turn y t) where
  cfl := h.cfl
  bmr := h.bmr
  step := h.step
  slot := h.slot
  inbox := h.inbox
  toBegin := by
    rw [← h.toBegin]
    simp only [Station.turn]
    split
    · exact countP_keepLate _ _ _
    · rfl
  ctx := (Quad.get_set_other _ _ hy).trans h.ctx
  incSocket := (Quad.get_set_other _ _ hy).trans h.incSocket
  gcuSocket := (Quad.get_set_other _ _ hy).trans h.gcuSocket

variable (h : st.SameFor x u)
include h

theorem curStep : u.curStep = st.curStep := by
  simp only [Station.curStep, stepRec, table, h.cfl, h.slot, h.step]

theorem runKr : u.runKr = st.runKr := by simp only [Station.runKr, table, h.cfl, h.slot]

theorem profileKm : u.profileKm x = st.profileKm x := by simp only [Station.profileKm, profile, h.cfl]

theorem ownEntry : u.ownEntry x = st.ownEntry x := by simp only [Station.ownEntry, rosterIndex, h.cfl, h.bmr]

theorem rosterCause : u.rosterCause x = st.rosterCause x := by
  simp only [Station.rosterCause, h.ownEntry, h.bmr, h.cfl]

theorem endOutCause (e : EndCause) : u.endOutCause x e = st.endOutCause x e := by
  simp only [Station.endOutCause, h.ctx, h.ownEntry, h.rosterCause]

theorem gone (b : Bool) : u.gone b x = st.gone b x := by
  simp only [Station.gone, passedLast, h.ctx, h.ownEntry, h.bmr]

theorem endedLate : u.endedLate x = st.endedLate x := by
  simp only [Station.endedLate, h.inbox, h.toBegin, h.incSocket]

end SameFor

/-! ### Four turns -/

/-- A notice whose rule for one socket is the turn `T` gives every socket that turn. -/
theorem each_eq_turns {f : Socket → Station → Station} (h : ∀ x u, st.SameFor x u → f x u = u.turn x (T x)) :
    st.each f = st.turns T := by
  have same := SameFor.refl st
  simp only [turns, each]
  rw [h 0 st (same 0), h 1 _ ((same 1).turn (by decide) _), h 2 _ (((same 2).turn (by decide) _).turn (by decide) _),
    h 3 _ ((((same 3).turn (by decide) _).turn (by decide) _).turn (by decide) _)]

@[simp] theorem ctx_turns (x : Socket) : (st.turns T).ctx x = (T x).ctx (st.ctx x) :=
  each_get (f := fun x u => u.turn x (T x)) ctx (fun x => (T x).ctx) (fun _ => True) (fun _ _ _ => trivial)
    (fun _ _ _ => Quad.get_set_same _ _ _) (fun _ _ _ h => Quad.get_set_other _ _ h) trivial x

@[simp] theorem incSocket_turns (x : Socket) : (st.turns T).incSocket x = (T x).inc (st.incSocket x) :=
  each_get (f := fun x u => u.turn x (T x)) incSocket (fun x => (T x).inc) (fun _ => True) (fun _ _ _ => trivial)
    (fun _ _ _ => Quad.get_set_same _ _ _) (fun _ _ _ h => Quad.get_set_other _ _ h) trivial x

@[simp] theorem gcuSocket_turns (x : Socket) : (st.turns T).gcuSocket x = (T x).gcu (st.gcuSocket x) :=
  each_get (f := fun x u => u.turn x (T x)) gcuSocket (fun x => (T x).gcu) (fun _ => True) (fun _ _ _ => trivial)
    (fun _ _ _ => Quad.get_set_same _ _ _) (fun _ _ _ h => Quad.get_set_other _ _ h) trivial x

/-- The outbound queue once every socket has had its turn. -/
def queueAfter (T : Socket → SocketTurn) (q : List OutEntry) : List OutEntry :=
  ([0, 1, 2, 3] : List Socket).foldl (fun q x => (T x).outbound q) q

/-- The INC's inbox once every socket has had its turn. -/
def incInboxAfter (st : Station) (T : Socket → SocketTurn) : List IncMsg :=
  ([0, 1, 2, 3] : List Socket).foldl (fun q x => if (T x).late then keepLate x st.stcToOpen q else q) st.inc.inbox

/-- The SLU's inbox once every socket has had its turn. -/
def sluInboxAfter (st : Station) (T : Socket → SocketTurn) : List SluMsg :=
  st.slu.inbox ++ (([0, 1, 2, 3] : List Socket).filter fun x => (T x).hands).map SluMsg.handOver

/-- All that the turns change. -/
theorem turns_changes (st : Station) (T : Socket → SocketTurn) : st.turns T = { st with
    stc := { st.stc with ctx := (st.turns T).stc.ctx }
    inc := { st.inc with sockets := (st.turns T).inc.sockets, inbox := st.incInboxAfter T }
    gcu := { st.gcu with sockets := (st.turns T).gcu.sockets }
    lkc := { st.lkc with outbound := queueAfter T st.lkc.outbound }
    slu := { st.slu with inbox := st.sluInboxAfter T } } := by
  have hslu : (st.turns T).slu.inbox = st.sluInboxAfter T := by
    simp only [turns, each, turn, sluInboxAfter, List.filter_cons, List.filter_nil]
    cases (T 0).hands <;> cases (T 1).hands <;> cases (T 2).hands <;> cases (T 3).hands <;> simp
  rw [← hslu]
  rfl

/-- What the turns change when none of them speaks to the INC or the SLU. -/
theorem turns_changes_quietly (hl : ∀ x, (T x).late = false) (hh : ∀ x, (T x).hands = false) : st.turns T = { st with
    stc := { st.stc with ctx := (st.turns T).stc.ctx }
    inc := { st.inc with sockets := (st.turns T).inc.sockets }
    gcu := { st.gcu with sockets := (st.turns T).gcu.sockets }
    lkc := { st.lkc with outbound := queueAfter T st.lkc.outbound } } := by
  refine (turns_changes st T).trans ?_
  simp [incInboxAfter, sluInboxAfter, hl, hh]

theorem turns_inc_of_id (hi : ∀ x, (T x).inc = id) (hl : ∀ x, (T x).late = false) : (st.turns T).inc = st.inc :=
  each_keeps (f := fun x u => u.turn x (T x)) (K := fun u => u.inc = st.inc)
    (fun x u hu => by simp [turn, hi, hl, hu, incSocket]) rfl

theorem turns_gcu_of_id (hg : ∀ x, (T x).gcu = id) : (st.turns T).gcu = st.gcu :=
  each_keeps (f := fun x u => u.turn x (T x)) (K := fun u => u.gcu = st.gcu)
    (fun x u hu => by simp [turn, hg, hu, gcuSocket]) rfl

theorem turns_ctx_of_id (hc : ∀ x, (T x).ctx = id) : (st.turns T).stc.ctx = st.stc.ctx :=
  Quad.ext_get fun x => (ctx_turns x).trans (by rw [hc x]; rfl)

/-- Turns that only change contexts. -/
theorem turns_eq_map {f : RunCtx → RunCtx} : st.turns (fun _ => { ctx := f }) = { st with stc := { st.stc with
    ctx := st.stc.ctx.map f } } := by
  have hctx : (st.turns fun _ => { ctx := f }).stc.ctx = st.stc.ctx.map f :=
    Quad.ext_get fun x => (ctx_turns x).trans (Quad.get_map f _ x).symm
  have hinc : (st.turns fun _ => { ctx := f }).inc = st.inc := turns_inc_of_id (fun _ => rfl) fun _ => rfl
  have hgcu : (st.turns fun _ => { ctx := f }).gcu = st.gcu := turns_gcu_of_id fun _ => rfl
  refine (turns_changes_quietly (fun _ => rfl) fun _ => rfl).trans ?_
  rw [hctx, hinc, hgcu]
  rfl

/-! What the turns leave of the INC's inbox, and what a notice reads that they leave as it is. -/

@[simp] theorem turns_incInbox : (st.turns T).inc.inbox = st.incInboxAfter T := rfl

@[simp] theorem turns_curStep : (st.turns T).curStep = st.curStep := rfl

@[simp] theorem turns_ownEntry : (st.turns T).ownEntry x = st.ownEntry x := rfl

/-- Late ends in the turns of some sockets wait as R70 has it. -/
theorem lateEndsKept_incInboxAfter (st : Station) (T : Socket → SocketTurn) :
    st.LateEndsKept (fun x => (T x).late) (st.incInboxAfter T) := lateEndsKept_fold st _

theorem incInboxAfter_none (h : ∀ x, (T x).late = false) : st.incInboxAfter T = st.inc.inbox := by
  simp [incInboxAfter, h]

theorem sluInboxAfter_none (h : ∀ x, (T x).hands = false) : st.sluInboxAfter T = st.slu.inbox := by
  simp [sluInboxAfter, h]

theorem queueAfter_none {q : List OutEntry} (h : ∀ x, (T x).outbound = id) : queueAfter T q = q := by
  simp [queueAfter, h]

end Station

end Sys2Proof.Machine
end

section
/-! PROOFS. The notices of the STC as turns: each operation of chapter 3 that goes to every socket gives each socket the turn
that its rule states. -/

namespace Sys2Proof.Machine

/-! ### VERDICTs withdrawn (R56) -/

/-- The body is a VERDICT of one of the sockets. -/
def verdictOfAny (p : Socket → Bool) (b : Body) : Bool :=
  ([0, 1, 2, 3] : List Socket).any fun x => p x && Station.isVerdictOf x b

theorem verdictOfAny_or (p r : Socket → Bool) (b : Body) :
    verdictOfAny (fun x => r x || p x) b = (verdictOfAny r b || verdictOfAny p b) := by
  rw [Bool.eq_iff_iff]
  simp only [verdictOfAny, Bool.or_eq_true, any_sockets, Bool.and_eq_true, ← exists_or, or_and_right]

theorem verdictsWithdrawn_eq_map (p : Socket → Bool) (q : List OutEntry) : verdictsWithdrawn p q =
    (q.filter fun e => !(verdictOfAny p e.body && e.place == .queued)).map fun e =>
      if verdictOfAny p e.body then { e with withdrawn := true } else e := rfl

theorem verdictsWithdrawn_cons (p : Socket → Bool) (e : OutEntry) (q : List OutEntry) : verdictsWithdrawn p (e :: q) =
    if verdictOfAny p e.body then
      if e.place = .queued then verdictsWithdrawn p q else { e with withdrawn := true } :: verdictsWithdrawn p q
    else e :: verdictsWithdrawn p q := by
  cases hv : verdictOfAny p e.body
  · simp [verdictsWithdrawn_eq_map, hv]
  · by_cases hq : e.place = .queued <;> simp [verdictsWithdrawn_eq_map, hv, hq]

theorem verdictsWithdrawn_none (q : List OutEntry) : verdictsWithdrawn (fun _ => false) q = q := by
  simp [verdictsWithdrawn]

/-- Withdrawn for some sockets, then for others. -/
theorem verdictsWithdrawn_twice (p r : Socket → Bool) (q : List OutEntry) :
    verdictsWithdrawn p (verdictsWithdrawn r q) = verdictsWithdrawn (fun x => r x || p x) q := by
  induction q with
  | nil => rfl
  | cons e q ih =>
    rw [verdictsWithdrawn_cons, verdictsWithdrawn_cons, verdictOfAny_or, ← ih]
    cases hr : verdictOfAny r e.body
    · simp [verdictsWithdrawn_cons]
    · by_cases hq : e.place = .queued <;> simp [verdictsWithdrawn_cons, hq]

/-! ### The run context in the words of the statements -/

namespace RunCtx

theorem toSettling_eq (ms : Nat) : toSettling ms = settles ms := rfl

theorem toHeld_eq : toHeld = holds := rfl

theorem toOut_eq (c : OutCause) : toOut c = leaves c := rfl

/-- A socket that has left is no longer disturbed (R76). -/
theorem disturbedBy_leaves (ms : Nat) (o : OutCause) (c : RunCtx) : (c.leaves o).disturbedBy ms = c.leaves o := rfl

end RunCtx

namespace Station

/-- Withdrawn socket by socket. -/
theorem verdictsWithdrawn_fold (p : Socket → Bool) (q : List OutEntry) :
    ([0, 1, 2, 3] : List Socket).foldl (fun q x => if p x then verdictsWithdrawn (· == x) q else q) q =
      verdictsWithdrawn p q := by
  have one : ∀ x q, (if p x then verdictsWithdrawn (· == x) q else q) = verdictsWithdrawn (fun y => p x && y == x) q :=
    fun x q => by
      cases hx : p x
      · simp [verdictsWithdrawn_none]
      · simp
  simp only [one, List.foldl_cons, List.foldl_nil, verdictsWithdrawn_twice]
  congr 1
  funext y
  fin_cases y <;> simp

/-! ### One operation, one turn -/

variable {st u : Station} {x : Socket}

@[simp] theorem set_ctx_self (st : Station) (x : Socket) : st.stc.ctx.set x (st.ctx x) = st.stc.ctx := Quad.set_get_self _ _

@[simp] theorem set_incSocket_self (st : Station) (x : Socket) : st.inc.sockets.set x (st.incSocket x) = st.inc.sockets :=
  Quad.set_get_self _ _

@[simp] theorem set_gcuSocket_self (st : Station) (x : Socket) : st.gcu.sockets.set x (st.gcuSocket x) = st.gcu.sockets :=
  Quad.set_get_self _ _

/-- A socket that is left as it stands. -/
theorem turn_none (st : Station) (x : Socket) : st.turn x { ctx := id } = st := by
  simp [turn, ctx, incSocket, gcuSocket]

theorem modCtx_eq_turn (st : Station) (x : Socket) (f : RunCtx → RunCtx) : st.modCtx x f = st.turn x { ctx := f } := by
  simp [turn, modCtx, ctx, incSocket, gcuSocket]

theorem closeShunt_eq_turn (st : Station) (x : Socket) :
    st.closeShunt x = st.turn x { ctx := id, inc := IncSocket.shut } := by
  rw [closeShunt_eq]
  simp [turn, modInc, ctx, incSocket, gcuSocket]

theorem voidWindow_modCtx (st : Station) (x : Socket) (f : RunCtx → RunCtx) :
    (st.voidWindow x).modCtx x f = st.turn x { ctx := f, gcu := GcuSocket.voided } := by
  rw [voidWindow_eq]
  simp [turn, modCtx, modGcu, ctx, incSocket, gcuSocket]

theorem closeShunt_modCtx (st : Station) (x : Socket) (f : RunCtx → RunCtx) :
    (st.closeShunt x).modCtx x f = st.turn x { ctx := f, inc := IncSocket.shut } := by
  rw [closeShunt_eq]
  simp [turn, modCtx, modInc, ctx, incSocket, gcuSocket]

theorem dropSocket_eq_turn (st : Station) (x : Socket) (c : OutCause) : st.dropSocket x c = st.turn x
    { ctx := RunCtx.leaves c, inc := IncSocket.shut, gcu := GcuSocket.voided, outbound := verdictsWithdrawn (· == x) } := by
  simp only [dropSocket, voidWindow_eq, withdrawVerdict_eq, verdictWithdrawn_eq, closeShunt_eq]
  rfl

theorem endJoinLate_modCtx (st : Station) (x : Socket) (f : RunCtx → RunCtx) :
    (st.endJoinLate x).modCtx x f = st.turn x { ctx := f, inc := fun _ => st.endedLate x, late := true } := by
  rw [endJoinLate_eq]
  simp [turn, modCtx, ctx, gcuSocket]

theorem startWindow_eq_turn (st : Station) (x : Socket) : st.startWindow x = st.turn x
    { ctx := fun c => { c with run := .measuring }
      gcu := fun g => { g with window := windowFor st.curStep (st.profileKm x) st.runKr, samples := [] } } := by
  simp only [turn, startWindow, openWindow, modCtx, modGcu, incSocket, id, Quad.set_get_self]
  rfl

theorem turn_congr {f f' : RunCtx → RunCtx} {g g' : GcuSocket → GcuSocket} (hf : f (st.ctx x) = f' (st.ctx x))
    (hg : g (st.gcuSocket x) = g' (st.gcuSocket x)) :
    st.turn x { ctx := f, gcu := g } = st.turn x { ctx := f', gcu := g' } := by simp only [turn, hf, hg]

/-! ### The turns of each notice -/

/-- The sockets of `p` leave the run, each with its cause (R85, R89). -/
def leaving (p : Socket → Bool) (cause : Socket → OutCause) (x : Socket) : SocketTurn where
  ctx := if p x then RunCtx.leaves (cause x) else id
  inc := if p x then IncSocket.shut else id
  gcu := if p x then GcuSocket.voided else id
  outbound := if p x then verdictsWithdrawn (· == x) else id

/-- The queue after turns of which some withdraw their socket's VERDICT. -/
theorem queueAfter_withdrawing {T : Socket → SocketTurn} {p : Socket → Bool} (q : List OutEntry)
    (h : ∀ x, (T x).outbound = if p x then verdictsWithdrawn (· == x) else id) :
    queueAfter T q = verdictsWithdrawn p q := by
  rw [← verdictsWithdrawn_fold]
  simp only [queueAfter, h]
  congr
  funext q x
  split <;> rfl

/-- The sockets whose position the bench regards as gone (R85): at the load-set notice JOINED ones with them. -/
def goneSockets (st : Station) (atLoadSet : Bool) (x : Socket) : Bool :=
  ((st.ctx x).run.stepping || (atLoadSet && (st.ctx x).run == .joined)) && st.gone atLoadSet x

theorem SameFor.goneSockets (h : st.SameFor x u) (b : Bool) : u.goneSockets b x = st.goneSockets b x := by
  simp only [Station.goneSockets, h.ctx, h.gone]

theorem compareSocket_eq_turn (b : Bool) (x : Socket) (st : Station) :
    compareSocket b x st = st.turn x (leaving (st.goneSockets b) st.rosterCause x) := by
  by_cases hx : st.goneSockets b x = true
  · rw [compareSocket, if_pos (by simpa [goneSockets] using hx), dropSocket_eq_turn]
    simp [leaving, hx]
  · rw [compareSocket, if_neg (by simpa [goneSockets] using hx)]
    simp [leaving, hx, turn_none]

theorem compareRoster_eq_turns (st : Station) (b : Bool) :
    st.compareRoster b = st.turns (leaving (st.goneSockets b) st.rosterCause) :=
  each_eq_turns fun x u h => by
    rw [compareSocket_eq_turn]
    simp only [leaving, h.goneSockets, h.rosterCause]

/-- R76. -/
def disturbing (st : Station) (x : Socket) : SocketTurn where
  ctx := RunCtx.disturbedBy st.curStep.settle
  gcu := if (st.ctx x).run = .measuring then GcuSocket.voided else id

theorem disturbSocket_eq_turn (x : Socket) (st : Station) : disturbSocket x st = st.turn x (st.disturbing x) := by
  unfold disturbSocket
  cases hr : (st.ctx x).run
  case measuring =>
    exact (voidWindow_modCtx st x _).trans
      (turn_congr (by simp [hr, RunCtx.disturbedBy, RunCtx.toSettling_eq, settleMs]) (by simp [hr]))
  case settling | ready | adjusting | masked =>
    exact (modCtx_eq_turn st x _).trans
      (turn_congr (by simp [hr, RunCtx.disturbedBy, RunCtx.toSettling_eq, settleMs]) (by simp [hr]))
  all_goals exact (turn_none st x).symm.trans (turn_congr (by simp [hr, RunCtx.disturbedBy]) (by simp [hr]))

theorem disturb_eq_turns (st : Station) : st.disturb = st.turns st.disturbing :=
  each_eq_turns fun x u h => by
    rw [disturbSocket_eq_turn]
    simp only [disturbing, h.ctx, h.curStep]

/-- R88, the paused notice. -/
def pausing (st : Station) (x : Socket) : SocketTurn where
  ctx := RunCtx.pausedBy
  gcu := if (st.ctx x).run = .measuring then GcuSocket.voided else id

theorem pauseSocket_eq_turn (x : Socket) (st : Station) : pauseSocket x st = st.turn x (st.pausing x) := by
  unfold pauseSocket
  cases hr : (st.ctx x).run
  case measuring =>
    exact (voidWindow_modCtx st x _).trans (turn_congr (by simp [hr, RunCtx.pausedBy, RunCtx.toHeld_eq]) (by simp [hr]))
  case settling | ready =>
    exact (modCtx_eq_turn st x _).trans (turn_congr (by simp [hr, RunCtx.pausedBy, RunCtx.toHeld_eq]) (by simp [hr]))
  all_goals exact (turn_none st x).symm.trans (turn_congr (by simp [hr, RunCtx.pausedBy]) (by simp [hr]))

theorem pauseSockets_eq_turns (st : Station) : st.each pauseSocket = st.turns st.pausing :=
  each_eq_turns fun x u h => by
    rw [pauseSocket_eq_turn]
    simp only [pausing, h.ctx]

/-- R88, the resumed notice. -/
theorem resumeSockets_eq (st : Station) : st.each resumeSocket = { st with stc := { st.stc with
    ctx := st.stc.ctx.map fun c => if c.run = .held then c.settles (st.curStep.settle + 1000) else c } } := by
  rw [← turns_eq_map]
  refine each_eq_turns fun x u h => ?_
  unfold resumeSocket
  split
  · rename_i hx
    exact (modCtx_eq_turn u x _).trans
      (turn_congr (by simp [hx, settleMs, h.curStep, RunCtx.toSettling_eq, Config.resumeExtraMs]) rfl)
  · rename_i hx
    exact (turn_none u x).symm.trans (turn_congr (by simp [hx]) rfl)

/-- R74. -/
def measuringReady (st : Station) (x : Socket) : SocketTurn where
  ctx := if (st.ctx x).run = .ready then fun c => { c with run := .measuring } else id
  gcu := if (st.ctx x).run = .ready then
    fun g => { g with samples := [], window := windowFor st.curStep (st.profileKm x) st.runKr } else id

theorem startReady_eq_turns (st : Station) :
    (st.each fun x u => if (u.ctx x).run = .ready then u.startWindow x else u) = st.turns st.measuringReady :=
  each_eq_turns fun x u h => by
    rw [h.ctx, startWindow_eq_turn, h.curStep, h.profileKm, h.runKr]
    by_cases hr : (st.ctx x).run = .ready <;> simp [measuringReady, hr, turn_none]

/-- The socket's join is still open at the load-set notice of step 0 (R70). -/
def endsLate (st : Station) (k : Nat) (x : Socket) : Bool := decide (k = 0 ∧ (st.ctx x).run = .joining)

/-- R70. -/
def endingLate (st : Station) (k : Nat) (noneLeft : Bool) (x : Socket) : SocketTurn where
  ctx := if st.endsLate k x then (if noneLeft then RunCtx.leaves .late else RunCtx.toIdle) else id
  inc := if st.endsLate k x then fun _ => st.endedLate x else id
  late := st.endsLate k x

theorem endLateJoins_eq_turns (st : Station) (k : Nat) (n : Bool) :
    (if k = 0 then st.each (endLateJoin n) else st) = st.turns (st.endingLate k n) := by
  have all : (if k = 0 then st.each (endLateJoin n) else st) = st.each fun x u => if k = 0 then endLateJoin n x u else u := by
    split <;> rfl
  rw [all]
  refine each_eq_turns fun x u h => ?_
  cases hl : st.endsLate k x
  · have stays : (if k = 0 then endLateJoin n x u else u) = u := by
      split
      · rename_i hk
        exact if_neg (by simpa [endsLate, hk, ← h.ctx] using hl)
      · rfl
    simp [stays, endingLate, hl, turn_none]
  · obtain ⟨rfl, hr⟩ : k = 0 ∧ (st.ctx x).run = .joining := by simpa [endsLate] using hl
    rw [if_pos rfl, endLateJoin, if_pos (by rw [h.ctx, hr]), endJoinLate_modCtx, h.endedLate]
    simp [endingLate, hl, RunCtx.toOut_eq]

/-- The socket starts step k (R71). -/
abbrev startsStep (st : Station) (k : Nat) (x : Socket) : Prop :=
  (st.ownEntry x).state = .active ∧ ((k = 0 ∧ (st.ctx x).run = .joined) ∨ (0 < k ∧ (st.ctx x).passed = true))

/-- R71: a context that starts a step with settle time `ms`, or is held for it. -/
def stepStarted (paused : Bool) (ms : Nat) (c : RunCtx) : RunCtx :=
  let fresh := { c with attempt := 1, adjustments := 0, lastWindow := none }
  if paused then fresh.holds else fresh.settles ms

/-- R71. -/
def startingStep (st : Station) (k : Nat) (paused : Bool) (x : Socket) : SocketTurn where
  ctx := if st.startsStep k x then stepStarted paused st.curStep.settle else id

theorem startSockets_eq_turns (st : Station) (k : Nat) (paused : Bool) :
    st.each (startSocket k paused) = st.turns (st.startingStep k paused) :=
  each_eq_turns fun x u h => by
    simp only [startSocket, h.ownEntry, h.ctx, startingStep]
    by_cases hs : st.startsStep k x
    · rw [if_pos hs, if_pos hs, modCtx_eq_turn, settleMs, h.curStep]
      rfl
    · rw [if_neg hs, if_neg hs, turn_none]

/-- R84. -/
def completing (st : Station) (last : Bool) (x : Socket) : SocketTurn where
  ctx := if (st.ctx x).passed then (if last then fun c => { c with run := .done } else id)
    else if (st.ctx x).failed then RunCtx.leaves .failed else id
  inc := if ((st.ctx x).passed && last) || (st.ctx x).failed then IncSocket.shut else id
  hands := (st.ctx x).passed && last

theorem completeSockets_eq_turns (st : Station) (last : Bool) :
    st.each (completeSocket last) = st.turns (st.completing last) :=
  each_eq_turns fun x u h => by
    simp only [completeSocket, h.ctx, completing]
    cases hp : (st.ctx x).passed
    · cases hf : (st.ctx x).failed
      · simp [turn_none]
      · simp [closeShunt_modCtx, RunCtx.toOut_eq]
    · have hf : (st.ctx x).failed = false := by simp [RunCtx.failed, hp]
      cases last
      · simp [hf, turn_none]
      · simp only [closeShunt_eq, if_true]
        simp [turn, modCtx, modInc, tellSlu, ctx, incSocket]

/-- The sockets the end of the run takes out (R89), those with an open join and the correcting ones apart. -/
def runLeaves (st : Station) (x : Socket) : Bool :=
  (st.ctx x).run == .joined || (st.ctx x).run == .done ||
    ((st.ctx x).run.stepping && (st.ctx x).run != .adjusting)

/-- R89. -/
def endingRun (st : Station) (e : EndCause) (x : Socket) : SocketTurn where
  ctx := if (st.ctx x).run = .joining ∨ st.runLeaves x then RunCtx.leaves (st.endOutCause x e) else id
  inc := if (st.ctx x).run = .joining then fun _ => st.endedLate x else if st.runLeaves x then IncSocket.shut else id
  gcu := if st.runLeaves x then GcuSocket.voided else id
  outbound := if st.runLeaves x then verdictsWithdrawn (· == x) else id
  late := decide ((st.ctx x).run = .joining)

theorem SameFor.runLeaves (h : st.SameFor x u) : u.runLeaves x = st.runLeaves x := by
  simp only [Station.runLeaves, h.ctx]

theorem endSocket_eq_turn (e : EndCause) (x : Socket) (st : Station) : endSocket e x st = st.turn x (st.endingRun e x) := by
  unfold endSocket
  cases hr : (st.ctx x).run <;>
    simp [endingRun, runLeaves, hr, RunState.stepping, endJoinLate_modCtx, dropSocket_eq_turn, turn_none, RunCtx.toOut_eq]

theorem endSockets_eq_turns (st : Station) (e : EndCause) : st.each (endSocket e) = st.turns (st.endingRun e) :=
  each_eq_turns fun x u h => by
    rw [endSocket_eq_turn]
    simp only [endingRun, h.runLeaves, h.ctx, h.endOutCause, h.endedLate]

theorem closeShunts_eq_turns (st : Station) :
    (st.each fun x u => u.closeShunt x) = st.turns fun _ => { ctx := id, inc := IncSocket.shut } :=
  each_eq_turns fun x u _ => closeShunt_eq_turn u x

/-! ### What a disturbance, a pause and the comparison with the roster leave -/

theorem any_ctx {u : Station} {p : RunCtx → Bool} : u.stc.ctx.toList.any p = true ↔ ∃ x, p (u.ctx x) = true := by
  simp [Quad.toList, Fin.exists_fin_succ, ctx, Quad.get]

theorem goneSockets_false (u : Station) : u.goneSockets false = fun x => (u.ctx x).run.stepping && u.left x := by
  funext x
  simp [goneSockets, gone_eq]

/-- A disturbance changes contexts and windows only. -/
theorem disturb_changes (u : Station) : u.disturb = { u with
    stc := { u.stc with ctx := u.disturb.stc.ctx }, gcu := { u.gcu with sockets := u.disturb.gcu.sockets } } := by
  have hinc : (u.turns u.disturbing).inc = u.inc := turns_inc_of_id (fun _ => rfl) fun _ => rfl
  rw [disturb_eq_turns]
  refine (turns_changes_quietly (fun _ => rfl) fun _ => rfl).trans ?_
  rw [queueAfter_none fun _ => rfl, hinc]

theorem disturb_incSocket (u : Station) (x : Socket) : u.disturb.incSocket x = u.incSocket x := by
  rw [disturb_eq_turns, incSocket_turns]
  rfl

theorem disturb_ctx (u : Station) (x : Socket) : u.disturb.ctx x = (u.ctx x).disturbedBy u.curStep.settle := by
  rw [disturb_eq_turns, ctx_turns, disturbing]

theorem disturb_gcuSocket (u : Station) (x : Socket) :
    u.disturb.gcuSocket x = if (u.ctx x).run = .measuring then (u.gcuSocket x).voided else u.gcuSocket x := by
  rw [disturb_eq_turns, gcuSocket_turns, disturbing]
  split <;> rfl

/-- The comparison with the roster changes contexts, windows, shunts and VERDICTs of the sockets that leave. -/
theorem compareRoster_changes (u : Station) (b : Bool) : u.compareRoster b = { u with
    stc := { u.stc with ctx := (u.compareRoster b).stc.ctx }
    inc := { u.inc with sockets := (u.compareRoster b).inc.sockets }
    gcu := { u.gcu with sockets := (u.compareRoster b).gcu.sockets }
    lkc := { u.lkc with outbound := verdictsWithdrawn (u.goneSockets b) u.lkc.outbound } } := by
  rw [compareRoster_eq_turns, ← queueAfter_withdrawing (T := leaving (u.goneSockets b) u.rosterCause) _ fun _ => rfl]
  exact turns_changes_quietly (fun _ => rfl) fun _ => rfl

theorem compareRoster_curStep (u : Station) (b : Bool) : (u.compareRoster b).curStep = u.curStep := by
  rw [compareRoster_eq_turns, turns_curStep]

section Compared

variable {u : Station} {b : Bool} {x : Socket}

theorem compareRoster_gone (h : u.goneSockets b x = true) :
    (u.compareRoster b).ctx x = (u.ctx x).leaves (u.rosterCause x) ∧
      (u.compareRoster b).incSocket x = (u.incSocket x).shut ∧
      (u.compareRoster b).gcuSocket x = (u.gcuSocket x).voided := by
  simp [compareRoster_eq_turns, leaving, h]

theorem compareRoster_stays (h : u.goneSockets b x = false) :
    (u.compareRoster b).ctx x = u.ctx x ∧ (u.compareRoster b).incSocket x = u.incSocket x ∧
      (u.compareRoster b).gcuSocket x = u.gcuSocket x := by
  simp [compareRoster_eq_turns, leaving, h]

end Compared

/-- A pause changes contexts and windows only. -/
theorem pauseSockets_changes (u : Station) : u.each pauseSocket = { u with
    stc := { u.stc with ctx := (u.each pauseSocket).stc.ctx }
    gcu := { u.gcu with sockets := (u.each pauseSocket).gcu.sockets } } := by
  have hinc : (u.turns u.pausing).inc = u.inc := turns_inc_of_id (fun _ => rfl) fun _ => rfl
  rw [pauseSockets_eq_turns]
  refine (turns_changes_quietly (fun _ => rfl) fun _ => rfl).trans ?_
  rw [queueAfter_none fun _ => rfl, hinc]

theorem pauseSockets_ctx (u : Station) (x : Socket) : (u.each pauseSocket).ctx x = (u.ctx x).pausedBy := by
  rw [pauseSockets_eq_turns, ctx_turns, pausing]

theorem pauseSockets_gcuSocket (u : Station) (x : Socket) : (u.each pauseSocket).gcuSocket x =
    if (u.ctx x).run = .measuring then (u.gcuSocket x).voided else u.gcuSocket x := by
  rw [pauseSockets_eq_turns, gcuSocket_turns, pausing]
  split <;> rfl

end Station
end Sys2Proof.Machine
end

section
/-! PROOFS. Disturbance, pause and resume (R76, R77, R88). -/

namespace Sys2Proof.Machine

namespace Station

variable {st : Station} {rest : List StcMsg}

/-! ### The notices, heard -/

theorem stcDisturbance_heard (h : Heard StcMsg.overtakes st.stc.inbox .disturbance rest) :
    st.stcDisturbance = (((st.stcLeft rest).beforeVoids fun _ => true).compareRoster false).disturb :=
  stcNotice_heard h rfl rfl fun x hx => by cases x <;> simp_all [StcMsg.isNotice]

theorem stcPaused_heard (h : Heard StcMsg.overtakes st.stc.inbox .paused rest) :
    st.stcPaused = ((st.stcLeft rest).beforeVoids fun _ => true).each pauseSocket :=
  stcNotice_heard h rfl rfl fun x hx => by cases x <;> simp_all [StcMsg.isNotice]

theorem stcResumed_heard (h : Heard StcMsg.overtakes st.stc.inbox .resumed rest) :
    st.stcResumed = (st.stcLeft rest).each resumeSocket :=
  stcNotice_heard h rfl rfl fun x hx => by cases x <;> simp_all [StcMsg.isNotice]

/-! ### RDY's falling edge (R76, R92) -/

/-- The GCU has seen RDY fall. -/
def rdyFell (u : Station) : Station := { u with gcu := { u.gcu with rdy := false } }

theorem rdyFalling_measuring (h : st.gcu.rdy = true)
    (hm : ∃ x, ((st.beforeVoids fun _ => true).ctx x).run = .measuring) :
    st.rdyFalling = (st.beforeVoids fun _ => true).rdyFell.disturb := by
  unfold rdyFalling
  rw [if_pos h]
  exact if_pos ((any_ctx (u := st.beforeVoids fun _ => true)).mpr (by simpa using hm))

theorem rdyFalling_idle (h : st.gcu.rdy = true)
    (hm : ∀ x, ((st.beforeVoids fun _ => true).ctx x).run ≠ .measuring) :
    st.rdyFalling = (st.beforeVoids fun _ => true).rdyFell := by
  unfold rdyFalling
  rw [if_pos h]
  exact if_neg (mt (any_ctx (u := st.beforeVoids fun _ => true)).mp (by simpa using hm))

end Station

/-! ### The statements -/

/-- Settles O37: RDY's falling edge, with a socket measuring and with none; and the notice, which compares with the roster
before it disturbs. -/
theorem disturbanceSettlesAnew : Obligations.DisturbanceSettlesAnew := by
  refine ⟨fun s ha hr => ?_, fun s rest ha h => ?_⟩
  · intro u measures
    have falls := Station.rdyFalling_measuring hr
    have stays := Station.rdyFalling_idle hr
    change (∃ x, (u.ctx x).run = .measuring) → _ = u.rdyFell.disturb at falls
    change (∀ x, (u.ctx x).run ≠ .measuring) → _ = u.rdyFell at stays
    clear_value u
    refine ⟨fun hm => answers_of_run rfl ha (falls (by simpa [measures] using hm)) ⟨Station.disturb_changes u.rdyFell,
      fun x => ⟨Station.disturb_ctx _ x, ?_⟩⟩, fun hm => next_of_run rfl ha (stays (by simpa [measures] using hm))⟩
    simp only [measures, beq_iff_eq]
    exact Station.disturb_gcuSocket u.rdyFell x
  · intro u leaves voids
    have heard := Station.stcDisturbance_heard h
    change _ = (u.compareRoster false).disturb at heard
    have hgone : u.goneSockets false = leaves := Station.goneSockets_false u
    clear_value u
    refine answers_of_run rfl ha heard ⟨?_, fun x => ⟨fun hl => ?_, fun hl => ?_, ?_⟩⟩
    · rw [Station.disturb_changes, Station.compareRoster_changes, hgone]
    · obtain ⟨hctx, hinc, -⟩ := Station.compareRoster_gone (hgone ▸ hl)
      exact ⟨by rw [Station.disturb_ctx, hctx, RunCtx.disturbedBy_leaves], by rw [Station.disturb_incSocket, hinc]⟩
    · obtain ⟨hctx, hinc, -⟩ := Station.compareRoster_stays (hgone ▸ hl)
      exact ⟨by rw [Station.disturb_ctx, hctx, Station.compareRoster_curStep], by rw [Station.disturb_incSocket, hinc]⟩
    · rw [Station.disturb_gcuSocket]
      cases hl : leaves x
      · obtain ⟨hctx, -, hgcu⟩ := Station.compareRoster_stays (hgone ▸ hl)
        simp [voids, hl, hctx, hgcu]
      · obtain ⟨hctx, -, hgcu⟩ := Station.compareRoster_gone (hgone ▸ hl)
        simp [voids, hl, hctx, hgcu, RunCtx.leaves]

/-- Settles O38: the pause after the windows that ended, and the resume. -/
theorem pauseHoldsAndResumeSettles : Obligations.PauseHoldsAndResumeSettles := by
  refine ⟨fun s rest ha h => ?_, fun s rest ha h => ?_⟩
  · intro u measures
    have heard := Station.stcPaused_heard h
    change _ = u.each Station.pauseSocket at heard
    clear_value u
    refine answers_of_run rfl ha heard ⟨Station.pauseSockets_changes u, fun x => ⟨Station.pauseSockets_ctx u x, ?_⟩⟩
    simpa [measures] using Station.pauseSockets_gcuSocket u x
  · exact next_of_run rfl ha ((Station.stcResumed_heard h).trans (Station.resumeSockets_eq _))

end Sys2Proof.Machine
end

section
/-! PROOFS. The load-set notice, step completion and the end of the run (R70, R71, R84, R85, R89). -/

namespace Sys2Proof.Machine

namespace Station

variable {st u : Station} {rest : List StcMsg} {x : Socket} {k : Nat} {p n : Bool}

/-! ### The load-set notice (R70, R71, R85) -/

/-- The STC is at step k. -/
def atStep (v : Station) (k : Nat) : Station := { v with stc := { v.stc with step := k } }

@[simp] theorem atStep_ctx (v : Station) : (v.atStep k).ctx x = v.ctx x := rfl
@[simp] theorem atStep_ownEntry (v : Station) : (v.atStep k).ownEntry x = v.ownEntry x := rfl
@[simp] theorem atStep_curStep (v : Station) : (v.atStep k).curStep = v.stepRec k := rfl

/-- The sockets leave or end their joins late. -/
def joinsClosed (u : Station) (k : Nat) (n : Bool) : Station :=
  (u.compareRoster true).turns ((u.compareRoster true).endingLate k n)

/-- Then the sockets start the step. -/
def loadSetTaken (u : Station) (k : Nat) (p n : Bool) : Station :=
  ((u.joinsClosed k n).atStep k).turns (((u.joinsClosed k n).atStep k).startingStep k p)

theorem stcLoadSet_heard (h : Heard StcMsg.overtakes st.stc.inbox (.loadSet k p n) rest) : st.stcLoadSet =
    ((st.stcLeft rest).beforeVoids fun x => (st.ownEntry x).state != .active).loadSetTaken k p n := by
  have hgone : (st.stcLeft rest).gone true = fun x => (st.ownEntry x).state != .active :=
    funext fun x => gone_atLoadSet (st.stcLeft rest) x
  refine (stcNotice_heard (b := (k, p, n)) h rfl rfl fun x hx => by cases x <;> simp_all [StcMsg.isNotice]).trans ?_
  simp only [hgone, endLateJoins_eq_turns, startSockets_eq_turns]
  rfl

theorem goneSockets_true (u : Station) : u.goneSockets true =
    fun x => ((u.ctx x).run.stepping || (u.ctx x).run == .joined) && (u.ownEntry x).state != .active := by
  funext x
  simp [goneSockets, gone_atLoadSet]

/-- A socket whose join is open is not compared with the roster. -/
theorem not_gone_of_joining {b : Bool} (h : (u.ctx x).run = .joining) : u.goneSockets b x = false := by
  simp [goneSockets, h, RunState.stepping]

theorem compareRoster_endsLate (u : Station) (b : Bool) : (u.compareRoster b).endsLate k x = u.endsLate k x := by
  cases hg : u.goneSockets b x
  · simp [endsLate, (compareRoster_stays hg).1]
  · have hr : (u.ctx x).run ≠ .joining := fun hr => by simp [not_gone_of_joining hr] at hg
    simp [endsLate, (compareRoster_gone hg).1, RunCtx.leaves, hr]

theorem compareRoster_inc_inbox (u : Station) (b : Bool) : (u.compareRoster b).inc.inbox = u.inc.inbox := by
  rw [compareRoster_changes]

theorem compareRoster_stc_inbox (u : Station) (b : Bool) : (u.compareRoster b).stc.inbox = u.stc.inbox := by
  rw [compareRoster_changes]

theorem compareRoster_ownEntry (u : Station) (b : Bool) : (u.compareRoster b).ownEntry x = u.ownEntry x := by
  rw [compareRoster_eq_turns, turns_ownEntry]

theorem compareRoster_endedLate {b : Bool} (h : u.goneSockets b x = false) :
    (u.compareRoster b).endedLate x = u.endedLate x := by
  simp only [endedLate, compareRoster_inc_inbox, compareRoster_stc_inbox, (compareRoster_stays h).2.1]

theorem lateEndsKept_congr {v : Station} {r s : Socket → Bool} {q : List IncMsg} (hi : v.inc.inbox = u.inc.inbox)
    (hs : v.stc.inbox = u.stc.inbox) (hr : ∀ x, r x = s x) (h : v.LateEndsKept r q) : u.LateEndsKept s q := by
  obtain rfl : r = s := funext hr
  simpa only [LateEndsKept, hi, hs] using h

theorem joinsClosed_changes (u : Station) (k : Nat) (n : Bool) : u.joinsClosed k n = { u with
    stc := { u.stc with ctx := (u.joinsClosed k n).stc.ctx }
    inc := { u.inc with sockets := (u.joinsClosed k n).inc.sockets, inbox := (u.joinsClosed k n).inc.inbox }
    gcu := { u.gcu with sockets := (u.joinsClosed k n).gcu.sockets }
    lkc := { u.lkc with outbound := verdictsWithdrawn (u.goneSockets true) u.lkc.outbound } } := by
  have late := turns_changes (u.compareRoster true) ((u.compareRoster true).endingLate k n)
  rw [queueAfter_none fun _ => rfl, sluInboxAfter_none fun _ => rfl] at late
  rw [joinsClosed, turns_incInbox]
  refine late.trans ?_
  generalize (u.compareRoster true).turns _ = w, (u.compareRoster true).incInboxAfter _ = q
  rw [compareRoster_changes]

theorem joinsClosed_lateEndsKept (u : Station) (k : Nat) (n : Bool) :
    u.LateEndsKept (u.endsLate k) (u.joinsClosed k n).inc.inbox := by
  rw [joinsClosed, turns_incInbox]
  exact lateEndsKept_congr (compareRoster_inc_inbox u true) (compareRoster_stc_inbox u true)
    (fun _ => compareRoster_endsLate u true) (lateEndsKept_incInboxAfter _ ((u.compareRoster true).endingLate k n))

theorem joinsClosed_gone (h : u.goneSockets true x = true) :
    (u.joinsClosed k n).ctx x = (u.ctx x).leaves (u.rosterCause x) ∧
      (u.joinsClosed k n).incSocket x = (u.incSocket x).shut ∧
      (u.joinsClosed k n).gcuSocket x = (u.gcuSocket x).voided := by
  obtain ⟨hctx, hinc, hgcu⟩ := compareRoster_gone h
  have hl : (u.compareRoster true).endsLate k x = false := by simp [endsLate, hctx, RunCtx.leaves]
  rw [joinsClosed, ctx_turns, incSocket_turns, gcuSocket_turns, ← hctx, ← hinc, ← hgcu]
  simp [endingLate, hl]

theorem joinsClosed_late (h : u.endsLate k x = true) :
    (u.joinsClosed k n).ctx x = (if n then (u.ctx x).leaves .late else { u.ctx x with run := .idle }) ∧
      (u.joinsClosed k n).incSocket x = u.endedLate x ∧ (u.joinsClosed k n).gcuSocket x = u.gcuSocket x := by
  have hg : u.goneSockets true x = false := not_gone_of_joining (of_decide_eq_true h).2
  obtain ⟨hctx, -, hgcu⟩ := compareRoster_stays hg
  rw [joinsClosed, ctx_turns, incSocket_turns, gcuSocket_turns]
  simp only [endingLate, compareRoster_endsLate, h, compareRoster_endedLate hg, hctx, hgcu, if_true, id, and_true]
  split <;> rfl

theorem joinsClosed_stays (hg : u.goneSockets true x = false) (hl : u.endsLate k x = false) :
    (u.joinsClosed k n).ctx x = u.ctx x ∧ (u.joinsClosed k n).incSocket x = u.incSocket x ∧
      (u.joinsClosed k n).gcuSocket x = u.gcuSocket x := by
  rw [joinsClosed, ctx_turns, incSocket_turns, gcuSocket_turns]
  simpa [endingLate, compareRoster_endsLate, hl] using compareRoster_stays hg

/-- The start of a step changes contexts only. -/
theorem startSockets_changes (v : Station) (k : Nat) (p : Bool) : v.turns (v.startingStep k p) = { v with
    stc := { v.stc with ctx := (v.turns (v.startingStep k p)).stc.ctx } } := by
  have hinc : (v.turns (v.startingStep k p)).inc = v.inc := turns_inc_of_id (fun _ => rfl) fun _ => rfl
  have hgcu : (v.turns (v.startingStep k p)).gcu = v.gcu := turns_gcu_of_id fun _ => rfl
  refine (turns_changes_quietly (fun _ => rfl) fun _ => rfl).trans ?_
  rw [queueAfter_none fun _ => rfl, hinc, hgcu]

theorem loadSetTaken_changes (u : Station) (k : Nat) (p n : Bool) : u.loadSetTaken k p n = { u with
    stc := { u.stc with ctx := (u.loadSetTaken k p n).stc.ctx, step := k }
    inc := { u.inc with sockets := (u.loadSetTaken k p n).inc.sockets, inbox := (u.loadSetTaken k p n).inc.inbox }
    gcu := { u.gcu with sockets := (u.loadSetTaken k p n).gcu.sockets }
    lkc := { u.lkc with outbound := verdictsWithdrawn (u.goneSockets true) u.lkc.outbound } } := by
  rw [loadSetTaken, startSockets_changes, atStep, joinsClosed_changes]

theorem loadSetTaken_lateEndsKept (u : Station) (k : Nat) (p n : Bool) :
    u.LateEndsKept (u.endsLate k) (u.loadSetTaken k p n).inc.inbox := by
  rw [loadSetTaken, startSockets_changes]
  exact joinsClosed_lateEndsKept u k n

/-- The INC and the GCU have nothing to do with the start of a step. -/
theorem loadSetTaken_sockets (u : Station) (k : Nat) (p n : Bool) (x : Socket) :
    (u.loadSetTaken k p n).incSocket x = (u.joinsClosed k n).incSocket x ∧
      (u.loadSetTaken k p n).gcuSocket x = (u.joinsClosed k n).gcuSocket x :=
  ⟨by rw [loadSetTaken, incSocket_turns]; rfl, by rw [loadSetTaken, gcuSocket_turns]; rfl⟩

theorem joinsClosed_ownEntry (u : Station) (k : Nat) (n : Bool) : (u.joinsClosed k n).ownEntry x = u.ownEntry x := by
  rw [joinsClosed, turns_ownEntry, compareRoster_ownEntry]

theorem joinsClosed_stepRec (u : Station) (k : Nat) (n : Bool) : (u.joinsClosed k n).stepRec k = u.stepRec k := by
  rw [joinsClosed_changes]
  rfl

/-- A socket that starts the step. -/
theorem loadSetTaken_ctx_starts (h : ((u.joinsClosed k n).atStep k).startsStep k x) :
    (u.loadSetTaken k p n).ctx x = stepStarted p (u.stepRec k).settle ((u.joinsClosed k n).ctx x) := by
  rw [loadSetTaken, ctx_turns, startingStep, if_pos h, atStep_curStep, joinsClosed_stepRec, atStep_ctx]

/-- A socket that does not. -/
theorem loadSetTaken_ctx_stays (h : ¬ ((u.joinsClosed k n).atStep k).startsStep k x) :
    (u.loadSetTaken k p n).ctx x = (u.joinsClosed k n).ctx x := by
  rw [loadSetTaken, ctx_turns, startingStep, if_neg h, atStep_ctx]
  rfl

/-- The sockets that start are those that would have started before the others left or ended their joins. -/
theorem startsStep_joinsClosed : ((u.joinsClosed k n).atStep k).startsStep k x ↔ u.startsStep k x := by
  simp only [startsStep, atStep_ownEntry, joinsClosed_ownEntry, atStep_ctx]
  refine and_congr_right fun ha => ?_
  have hg : u.goneSockets true x = false := by simp [goneSockets_true, ha]
  cases hl : u.endsLate k x
  · rw [(joinsClosed_stays hg hl).1]
  · obtain ⟨hk, hr⟩ : k = 0 ∧ (u.ctx x).run = .joining := by simpa [endsLate] using hl
    rw [(joinsClosed_late hl).1]
    cases n <;> simp [hk, hr, RunCtx.leaves]

theorem stepRec_eq {t : RunTable} {r : StepRecord} (ht : st.table st.stc.slot = some t) (hr : t.steps[k]? = some r) :
    st.stepRec k = r := by
  simp [stepRec, ht, List.getD_eq_getElem?_getD, hr]

end Station

/-- Settles O35: each socket leaves, ends its join late, or is left for the start of the step, and then starts or not. -/
theorem loadSetStartsItsSockets : Obligations.LoadSetStartsItsSockets := by
  refine ⟨fun st tb k r ht hr => Station.stepRec_eq ht hr, fun s rest k paused noneLeft ha h => ?_⟩
  intro u leaves
  have heard := Station.stcLoadSet_heard h
  change _ = u.loadSetTaken k paused noneLeft at heard
  have hgone : u.goneSockets true = leaves := Station.goneSockets_true u
  clear_value u
  have late : u.endsLate k = fun x => k == 0 && (u.ctx x).run == .joining := by
    funext x
    simp [Station.endsLate, Bool.decide_and, Bool.beq_eq_decide_eq]
  refine answers_of_run rfl ha heard ⟨?_, late ▸ Station.loadSetTaken_lateEndsKept u k paused noneLeft, fun x => ?_⟩
  · exact hgone ▸ Station.loadSetTaken_changes u k paused noneLeft
  obtain ⟨hinc, hgcu⟩ := Station.loadSetTaken_sockets u k paused noneLeft x
  rw [hinc, hgcu]
  intro starts
  refine ⟨fun hs => ?_, fun hr hk => ?_, fun hl => ?_, fun hs hl hj => ?_⟩
  · have hl : leaves x = false := by simp [leaves, hs.1]
    have hn : u.endsLate k x = false := by
      rcases hs.2 with ⟨-, hr⟩ | ⟨hk, -⟩
      · simp [Station.endsLate, hr]
      · simp [Station.endsLate, Nat.pos_iff_ne_zero.mp hk]
    obtain ⟨hctx, hinc, hgcu⟩ := Station.joinsClosed_stays (n := noneLeft) (hgone ▸ hl) hn
    exact ⟨(Station.loadSetTaken_ctx_starts (Station.startsStep_joinsClosed.mpr hs)).trans (by rw [hctx]; rfl), hinc, hgcu⟩
  · have hs : ¬ starts := fun hs => by
      rcases hs.2 with ⟨-, hr'⟩ | ⟨hk', -⟩
      · simp [hr] at hr'
      · omega
    rw [Station.loadSetTaken_ctx_stays (mt Station.startsStep_joinsClosed.mp hs)]
    exact Station.joinsClosed_late (by simp [Station.endsLate, hk, hr])
  · have hs : ¬ starts := fun hs => by simp [leaves, hs.1] at hl
    rw [Station.loadSetTaken_ctx_stays (mt Station.startsStep_joinsClosed.mp hs)]
    exact Station.joinsClosed_gone (hgone ▸ hl)
  · have hn : u.endsLate k x = false := by
      rcases hj with hr | hk
      · simp [Station.endsLate, hr]
      · simp [Station.endsLate, Nat.pos_iff_ne_zero.mp hk]
    rw [Station.loadSetTaken_ctx_stays (mt Station.startsStep_joinsClosed.mp hs)]
    exact Station.joinsClosed_stays (hgone ▸ hl) hn

end Sys2Proof.Machine
end

section
/-! PROOFS. Step completion and the end of the run (R84, R85, R89). -/

namespace Sys2Proof.Machine

/-! ### Shunts that close (R110) -/

namespace IncSocket

/-- A shunt that has been closed is not open. -/
theorem shut_state (i : IncSocket) : i.shut.state ≠ .inserting ∧ i.shut.state ≠ .inserted := by
  unfold shut
  split
  · exact ⟨by simp, by simp⟩
  · rename_i h
    exact not_or.mp h

theorem shut_of_closed {i : IncSocket} (h : i.state ≠ .inserting ∧ i.state ≠ .inserted) : i.shut = i :=
  if_neg (not_or.mpr h)

@[simp] theorem shut_shut (i : IncSocket) : i.shut.shut = i.shut := shut_of_closed i.shut_state

end IncSocket

namespace Station

variable {st u : Station} {rest : List StcMsg} {x : Socket} {last : Bool} {e : EndCause}

theorem endedLate_state (u : Station) (x : Socket) :
    (u.endedLate x).state ≠ .inserting ∧ (u.endedLate x).state ≠ .inserted := by
  unfold endedLate
  split <;> exact IncSocket.shut_state _

/-! ### Step completion (R84, R85) -/

/-- The sockets leave, and those that stay go on by their verdicts. -/
def stepCompleted (u : Station) (last : Bool) : Station :=
  (u.compareRoster false).turns ((u.compareRoster false).completing last)

theorem stcStepComplete_heard {k : Nat} (h : Heard StcMsg.overtakes st.stc.inbox (.stepComplete k last) rest) :
    st.stcStepComplete = ((st.stcLeft rest).beforeVoids st.left).stepCompleted last := by
  have hgone : (st.stcLeft rest).gone false = st.left := funext fun x => gone_eq (st.stcLeft rest) x
  refine (stcNotice_heard (b := last) h rfl rfl fun x hx => by cases x <;> simp_all [StcMsg.isNotice]).trans ?_
  simp only [hgone, completeSockets_eq_turns]
  rfl

/-- A socket that has left has no verdict to go on by. -/
theorem verdict_of_leaves (c : RunCtx) (o : OutCause) : (c.leaves o).passed = false ∧ (c.leaves o).failed = false := by
  refine ⟨?_, rfl⟩
  unfold RunCtx.passed
  cases hv : (c.leaves o).verdicts.getLast? <;> rfl

theorem stepCompleted_gone (h : u.goneSockets false x = true) :
    (u.stepCompleted last).ctx x = (u.ctx x).leaves (u.rosterCause x) ∧
      (u.stepCompleted last).incSocket x = (u.incSocket x).shut ∧
      (u.stepCompleted last).gcuSocket x = (u.gcuSocket x).voided := by
  obtain ⟨hctx, hinc, hgcu⟩ := compareRoster_gone h
  obtain ⟨hp, hf⟩ := verdict_of_leaves (u.ctx x) (u.rosterCause x)
  rw [stepCompleted, ctx_turns, incSocket_turns, gcuSocket_turns]
  simp [completing, hctx, hinc, hgcu, hp, hf]

section Stays

variable (h : u.goneSockets false x = false)
include h

theorem stepCompleted_gcuSocket : (u.stepCompleted last).gcuSocket x = u.gcuSocket x := by
  rw [stepCompleted, gcuSocket_turns]
  exact (compareRoster_stays h).2.2

theorem stepCompleted_passed_last (hp : (u.ctx x).passed = true) :
    (u.stepCompleted true).ctx x = { u.ctx x with run := .done } ∧
      (u.stepCompleted true).incSocket x = (u.incSocket x).shut := by
  obtain ⟨hctx, hinc, -⟩ := compareRoster_stays h
  rw [stepCompleted, ctx_turns, incSocket_turns]
  simp [completing, hctx, hinc, hp]

theorem stepCompleted_passed (hp : (u.ctx x).passed = true) :
    (u.stepCompleted false).ctx x = u.ctx x ∧ (u.stepCompleted false).incSocket x = u.incSocket x := by
  obtain ⟨hctx, hinc, -⟩ := compareRoster_stays h
  rw [stepCompleted, ctx_turns, incSocket_turns]
  simp [completing, hctx, hinc, hp, RunCtx.failed]

theorem stepCompleted_failed (hf : (u.ctx x).failed = true) :
    (u.stepCompleted last).ctx x = (u.ctx x).leaves .failed ∧
      (u.stepCompleted last).incSocket x = (u.incSocket x).shut := by
  obtain ⟨hctx, hinc, -⟩ := compareRoster_stays h
  have hp : (u.ctx x).passed = false := by simp_all [RunCtx.failed]
  rw [stepCompleted, ctx_turns, incSocket_turns]
  simp [completing, hctx, hinc, hp, hf]

theorem stepCompleted_elsewhere (hr : (u.ctx x).run ≠ .stepDone) :
    (u.stepCompleted last).ctx x = u.ctx x ∧ (u.stepCompleted last).incSocket x = u.incSocket x := by
  obtain ⟨hctx, hinc, -⟩ := compareRoster_stays h
  have hf : (u.ctx x).failed = false := by simp [RunCtx.failed, hr]
  have hp : (u.ctx x).passed = false := by
    unfold RunCtx.passed
    split <;> simp [hr]
  rw [stepCompleted, ctx_turns, incSocket_turns]
  simp [completing, hctx, hinc, hp, hf]

end Stays

theorem stepCompleted_changes (u : Station) (last : Bool) : u.stepCompleted last = { u with
    stc := { u.stc with ctx := (u.stepCompleted last).stc.ctx }
    lkc := { u.lkc with outbound := verdictsWithdrawn (u.goneSockets false) u.lkc.outbound }
    inc := { u.inc with sockets := (u.stepCompleted last).inc.sockets }
    gcu := { u.gcu with sockets := (u.stepCompleted last).gcu.sockets }
    slu := { u.slu with inbox := u.slu.inbox ++ (([0, 1, 2, 3] : List Socket).filter fun x =>
      !u.goneSockets false x && (u.ctx x).passed && last).map SluMsg.handOver } } := by
  have hands : (u.compareRoster false).sluInboxAfter ((u.compareRoster false).completing last) =
      u.slu.inbox ++ (([0, 1, 2, 3] : List Socket).filter fun x =>
        !u.goneSockets false x && (u.ctx x).passed && last).map SluMsg.handOver := by
    have hslu : (u.compareRoster false).slu = u.slu := by rw [compareRoster_changes]
    rw [sluInboxAfter, hslu]
    congr 3
    funext x
    cases hg : u.goneSockets false x
    · simp [completing, (compareRoster_stays hg).1]
    · simp [completing, (compareRoster_gone hg).1, (verdict_of_leaves _ _).1]
  have after := turns_changes (u.compareRoster false) ((u.compareRoster false).completing last)
  rw [queueAfter_none fun _ => rfl, incInboxAfter_none fun _ => rfl, hands] at after
  rw [stepCompleted]
  refine after.trans ?_
  generalize (u.compareRoster false).turns _ = w
  rw [compareRoster_changes]

/-! ### The end of the run (R89) -/

/-- The STC keeps how the run has ended. -/
def atEnd (v : Station) (e : EndCause) : Station := { v with stc := { v.stc with runEnded := some e } }

@[simp] theorem atEnd_ctx (v : Station) : (v.atEnd e).ctx x = v.ctx x := rfl
@[simp] theorem atEnd_incSocket (v : Station) : (v.atEnd e).incSocket x = v.incSocket x := rfl
@[simp] theorem atEnd_gcuSocket (v : Station) : (v.atEnd e).gcuSocket x = v.gcuSocket x := rfl
@[simp] theorem atEnd_incInbox (v : Station) : (v.atEnd e).inc.inbox = v.inc.inbox := rfl

/-- Every socket moves by its run state, and every shunt closes. -/
def runClosed (u : Station) (e : EndCause) : Station :=
  ((u.turns (u.endingRun e)).turns fun _ => { ctx := id, inc := IncSocket.shut }).atEnd e

theorem stcRunEnded_heard (h : Heard StcMsg.overtakes st.stc.inbox (.ended e) rest) :
    st.stcRunEnded = ((st.stcLeft rest).beforeVoids fun _ => true).runClosed e := by
  refine (stcNotice_heard (b := e) h rfl rfl fun x hx => by cases x <;> simp_all [StcMsg.isNotice]).trans ?_
  simp only [endSockets_eq_turns, closeShunts_eq_turns]
  rfl

theorem runClosed_changes (u : Station) (e : EndCause) : u.runClosed e = { u with
    stc := { u.stc with ctx := (u.runClosed e).stc.ctx, runEnded := some e }
    lkc := { u.lkc with outbound := verdictsWithdrawn u.runLeaves u.lkc.outbound }
    inc := { u.inc with sockets := (u.runClosed e).inc.sockets, inbox := (u.runClosed e).inc.inbox }
    gcu := { u.gcu with sockets := (u.runClosed e).gcu.sockets } } := by
  have ends := turns_changes u (u.endingRun e)
  rw [queueAfter_withdrawing (p := u.runLeaves) _ fun _ => rfl, sluInboxAfter_none fun _ => rfl] at ends
  have closes := turns_changes_quietly (st := u.turns (u.endingRun e)) (T := fun _ => { ctx := id, inc := IncSocket.shut })
    (fun _ => rfl) fun _ => rfl
  rw [queueAfter_none fun _ => rfl] at closes
  rw [runClosed, atEnd_incInbox, turns_incInbox, incInboxAfter_none fun _ => rfl]
  refine (congrArg (atEnd · e) closes).trans ?_
  generalize (u.turns (u.endingRun e)).turns _ = w
  rw [ends]
  rfl

theorem runClosed_lateEndsKept (u : Station) (e : EndCause) :
    u.LateEndsKept (fun x => (u.ctx x).run == .joining) (u.runClosed e).inc.inbox := by
  rw [runClosed, atEnd_incInbox, turns_incInbox, incInboxAfter_none fun _ => rfl]
  exact lateEndsKept_incInboxAfter u (u.endingRun e)

theorem runClosed_ctx (u : Station) (e : EndCause) (x : Socket) :
    (u.runClosed e).ctx x = (u.endingRun e x).ctx (u.ctx x) := by
  rw [runClosed, atEnd_ctx, ctx_turns, ctx_turns]
  rfl

theorem runClosed_incSocket (u : Station) (e : EndCause) (x : Socket) :
    (u.runClosed e).incSocket x = ((u.endingRun e x).inc (u.incSocket x)).shut := by
  rw [runClosed, atEnd_incSocket, incSocket_turns, incSocket_turns]

theorem runClosed_gcuSocket (u : Station) (e : EndCause) (x : Socket) :
    (u.runClosed e).gcuSocket x = (u.endingRun e x).gcu (u.gcuSocket x) := by
  rw [runClosed, atEnd_gcuSocket, gcuSocket_turns, gcuSocket_turns]
  rfl

/-- The sockets the end of the run leaves in their states (R89). -/
theorem runLeaves_false (h : (u.ctx x).run = .adjusting ∨ (u.ctx x).run = .idle ∨ (u.ctx x).run = .out ∨
    (u.ctx x).run = .sealed ∨ (u.ctx x).run.inSealing = true) : u.runLeaves x = false := by
  unfold runLeaves
  generalize (u.ctx x).run = r at h ⊢
  revert h
  cases r <;> decide

/-! ### Local out causes (R85, R89) -/

theorem endOutCause_failed (h : (st.ctx x).failed = true ∧ (st.ownEntry x).out = some .failed) :
    st.endOutCause x .aborted = .failed ∧ st.endOutCause x .fault = .failed := by
  simp [endOutCause, h]

theorem endOutCause_notFailed (h : ¬ ((st.ctx x).failed = true ∧ (st.ownEntry x).out = some .failed)) :
    st.endOutCause x .aborted = .aborted ∧ st.endOutCause x .fault = .fault := by
  have keeps : ((st.ctx x).failed && (st.ownEntry x).out == some .failed) = false := by
    simpa using h
  simp [endOutCause, keeps]

end Station

/-- Settles O41: step completion by the verdict of a socket that stays; the end of the run by run state; the out causes. -/
theorem stepEndAndRunEndMoveSockets : Obligations.StepEndAndRunEndMoveSockets := by
  refine ⟨fun s rest k last ha h => ?_, fun s rest e ha h => ?_, fun st x => ?_⟩
  · intro u leaves hands
    have heard := Station.stcStepComplete_heard h
    change _ = u.stepCompleted last at heard
    have hgone : u.goneSockets false = leaves := Station.goneSockets_false u
    clear_value u
    refine answers_of_run rfl ha heard ⟨?_, fun x => ⟨fun hl => ?_, fun hf ho hc => ?_, fun hl => ?_⟩⟩
    · have changes := u.stepCompleted_changes last
      rw [hgone] at changes
      exact changes
    · exact Station.stepCompleted_gone (hgone ▸ hl)
    · have hp : (u.ctx x).passed = false := by simp_all [RunCtx.failed]
      have hl : leaves x = true := by
        have hr : (u.ctx x).run = .stepDone := by simp_all [RunCtx.failed]
        simp [leaves, Station.left, hr, RunState.stepping, ho, hp]
      obtain ⟨hctx, hinc, -⟩ := Station.stepCompleted_gone (last := last) (hgone ▸ hl)
      exact ⟨by rw [hctx, Station.rosterCause_out hc], hinc⟩
    · have stays : u.goneSockets false x = false := hgone ▸ hl
      exact ⟨Station.stepCompleted_gcuSocket stays,
        fun hp hlast => hlast ▸ Station.stepCompleted_passed_last stays hp,
        fun hp hlast => hlast ▸ Station.stepCompleted_passed stays hp,
        Station.stepCompleted_failed stays, Station.stepCompleted_elsewhere stays⟩
  · intro u leaves
    have heard := Station.stcRunEnded_heard h
    change _ = u.runClosed e at heard
    have hleaves : u.runLeaves = leaves := rfl
    clear_value u
    refine answers_of_run rfl ha heard ⟨?_, u.runClosed_lateEndsKept e, fun x => ⟨fun hr => ?_, fun hl => ?_, fun hl => ?_,
      fun hr => ?_, (u.runClosed_incSocket e x).symm ▸ IncSocket.shut_state _⟩⟩
    · exact u.runClosed_changes e
    · refine ⟨(u.runClosed_ctx e x).trans ?_, (u.runClosed_incSocket e x).trans ?_⟩
      · simp [Station.endingRun, hr]
      · simp [Station.endingRun, hr, IncSocket.shut_of_closed (u.endedLate_state x)]
    · have hl : u.runLeaves x = true := hl
      have hr : (u.ctx x).run ≠ .joining := fun hr => by simp [Station.runLeaves, hr, RunState.stepping] at hl
      refine ⟨(u.runClosed_ctx e x).trans ?_, (u.runClosed_incSocket e x).trans ?_, (u.runClosed_gcuSocket e x).trans ?_⟩
      · simp [Station.endingRun, hl]
      · simp [Station.endingRun, hr, hl]
      · simp [Station.endingRun, hl]
    · have hl : u.runLeaves x = false := hl
      exact (u.runClosed_gcuSocket e x).trans (by simp [Station.endingRun, hl])
    · have hj : (u.ctx x).run ≠ .joining := fun hj => by simp [hj, RunState.inSealing] at hr
      have hl : u.runLeaves x = false := Station.runLeaves_false hr
      exact ⟨(u.runClosed_ctx e x).trans (by simp [Station.endingRun, hj, hl]),
        (u.runClosed_incSocket e x).trans (by simp [Station.endingRun, hj, hl])⟩
  · intro keepsFailed
    exact ⟨fun c => Station.rosterCause_out, Station.rosterCause_absent, Station.endOutCause_failed,
      Station.endOutCause_notFailed, rfl, rfl⟩

end Sys2Proof.Machine
end

section
/-! PROOFS. Settling, windows and verdicts (R72 to R75, R79 to R83): what the end of a window, of a correction or of a mask
leads to. -/

namespace Sys2Proof.Machine

namespace Station

variable {st : Station} {x : Socket} {rest : List StcMsg} {f g : RunCtx → RunCtx}

/-! ### One context written twice -/

theorem modCtx_modCtx (st : Station) (x : Socket) (f g : RunCtx → RunCtx) :
    (st.modCtx x f).modCtx x g = st.modCtx x fun c => g (f c) := by
  simp [modCtx]

theorem modCtx_congr (h : f (st.ctx x) = g (st.ctx x)) : st.modCtx x f = st.modCtx x g := by
  unfold ctx at h
  simp only [modCtx, h]

/-- RDY depends on the run states only (R73). -/
theorem rdyHigh_modCtx (h : (f (st.ctx x)).run = (st.ctx x).run) : (st.modCtx x f).rdyHigh = st.rdyHigh := by
  have runs : ∀ y, ((st.modCtx x f).ctx y).run = (st.ctx y).run := fun y => by
    rw [ctx_modCtx]
    split
    · rename_i hy
      rw [h, hy]
    · rfl
  have pulls : ((st.modCtx x f).stc.ctx.toList.any fun c => holdsRdy c.run) =
      st.stc.ctx.toList.any fun c => holdsRdy c.run := by
    rw [Bool.eq_iff_iff, any_ctx, any_ctx]
    simp only [runs]
  simp only [rdyHigh, rdyPull, pulls, modCtx_lkc, modCtx_gcu, modCtx_stc_muted]

/-! ### A verdict, a window, a retry -/

theorem finalVerdict_eq_judged (st : Station) (x : Socket) (v : Verdict) (mean : Int) (spread att adj : Nat) :
    st.finalVerdict x v mean spread att adj = st.judged x v mean spread att adj :=
  placeFrame_ordinary (st.modCtx x _) st.bmr.runNo (body := verdictBody x _) rfl

theorem startWindow_eq_measures (st : Station) (x : Socket) : st.startWindow x = st.measures x := rfl

theorem retry_paused (h : st.bmr.paused = true) : st.retry x = st.modCtx x RunCtx.holds := if_pos h

theorem retry_settles (h : st.bmr.paused = false) (hd : (st.ctx x).disturbed = true ∨ st.rdyHigh = false) :
    st.retry x = st.modCtx x (RunCtx.settles st.curStep.settle) := by
  rw [retry, if_neg (by simp [h]), if_pos hd]
  rfl

theorem retry_measures (h : st.bmr.paused = false) (hd : (st.ctx x).disturbed = false) (hr : st.rdyHigh = true) :
    st.retry x = st.measures x := by
  rw [retry, if_neg (by simp [h]), if_neg (by simp [hd, hr]), startWindow_eq_measures]

/-! ### The reports, heard -/

theorem accuracyWindowEnd_heard {r : WindowReport} (h : Heard StcMsg.overtakes st.stc.inbox (.accuracyEnd x r) rest)
    (hr : (st.ctx x).run = .measuring) : st.accuracyWindowEnd x = (st.stcLeft rest).takeAccuracyEnd x r :=
  (stcReport_heard (b := r) h rfl rfl (if_pos rfl) fun y hy => by cases y <;> simp_all [StcMsg.line]).trans (if_pos hr)

theorem timedWindowEnd_heard {v : Verdict} {n : Nat} (h : Heard StcMsg.overtakes st.stc.inbox (.timedEnd x v n) rest)
    (hr : (st.ctx x).run = .measuring) : timedWindowEnd x st = (st.stcLeft rest).finalVerdict x v 0 0 1 0 :=
  (stcReport_heard (b := v) h rfl rfl (if_pos rfl) fun y hy => by cases y <;> simp_all [StcMsg.line]).trans (if_pos hr)

theorem adjustmentOutcome_heard {o : AdjustOutcome} (h : Heard StcMsg.overtakes st.stc.inbox (.adjusted x o) rest)
    (hr : (st.ctx x).run = .adjusting) : adjustmentOutcome x st = (st.stcLeft rest).takeAdjusted x o :=
  (stcReport_heard (b := o) h rfl rfl (if_pos rfl) fun y hy => by cases y <;> simp_all [StcMsg.line]).trans (if_pos hr)

theorem stcMaskEnd_masked (h : Heard StcMsg.overtakes st.stc.inbox (.maskEnd x) rest) (hr : (st.ctx x).run = .masked) :
    stcMaskEnd x st = (st.stcLeft rest).retry x :=
  (stcReport_heard (b := ()) h rfl rfl (if_pos rfl) fun y hy => by cases y <;> simp_all [StcMsg.line]).trans (if_pos hr)

theorem stcMaskEnd_settling (h : Heard StcMsg.overtakes st.stc.inbox (.maskEnd x) rest) (hr : (st.ctx x).run = .settling)
    (hw : (st.ctx x).waitMask = true) : stcMaskEnd x st = (st.stcLeft rest).modCtx x RunCtx.toReady := by
  refine (stcReport_heard (b := ()) h rfl rfl (if_pos rfl) fun y hy => by cases y <;> simp_all [StcMsg.line]).trans ?_
  have hr : ((st.stcLeft rest).ctx x).run = .settling := hr
  exact (if_neg (by simp [hr])).trans (if_pos ⟨hr, hw⟩)

/-! ### The checks of R79 in order -/

section Evaluate

variable {r : WindowReport}

/-- A sample of the window is out of range (R79 check 2). -/
def TooHigh (r : WindowReport) : Prop := ∃ y ∈ r.samples, y.status = .overRange

theorem any_overRange : (r.samples.any fun y => y.status == .overRange) = true ↔ TooHigh r := by
  simp [TooHigh]

/-- One of checks 1 to 3 fails. -/
def AttemptFails (st : Station) (r : WindowReport) : Prop :=
  r.timedOut = true ∨ TooHigh r ∨ st.curStep.spread < r.spread

theorem evaluate_retry (h : st.AttemptFails r) (ha : (st.ctx x).attempt < st.curStep.attempts) :
    ∃ c, st.evaluate x r = .retry c := by
  simp only [evaluate, any_overRange, ha, decide_true, failAttempt, if_true]
  split
  · exact ⟨_, rfl⟩
  · split
    · exact ⟨_, rfl⟩
    · rename_i h1 h2
      rw [if_pos ((h.resolve_left h1).resolve_left (mt any_overRange.mpr h2))]
      exact ⟨_, rfl⟩

section LastAttempt

variable (ha : st.curStep.attempts ≤ (st.ctx x).attempt)
include ha

theorem evaluate_noPulse (h : r.timedOut = true) : st.evaluate x r = .fail .noPulse := by
  simp [evaluate, h, failAttempt, ha]

theorem evaluate_overRange (h : r.timedOut = false) (ho : TooHigh r) : st.evaluate x r = .fail .overRange := by
  simp only [evaluate, h, any_overRange, ho]
  simp [failAttempt, ha]

theorem evaluate_spread (h : r.timedOut = false) (ho : ¬ TooHigh r) (hs : st.curStep.spread < r.spread) :
    st.evaluate x r = .fail .spread := by
  simp only [evaluate, h, any_overRange, ho, hs]
  simp [failAttempt, ha]

end LastAttempt

section Measured

variable (h : r.timedOut = false) (ho : ¬ TooHigh r) (hs : r.spread ≤ st.curStep.spread)
include h ho hs

theorem evaluate_pass (hl : st.curStep.lower ≤ r.mean) (hu : r.mean ≤ st.curStep.upper) : st.evaluate x r = .pass := by
  simp only [evaluate, h, any_overRange, ho, Nat.not_lt.mpr hs, hl, hu]
  simp

section Outside

variable (hm : r.mean < st.curStep.lower ∨ st.curStep.upper < r.mean)
include hm

theorem evaluate_outside : st.evaluate x r = match adjustChannel st.curStep.adjust with
    | some c => if st.adjustable x c ∧ (st.ctx x).attempt < st.curStep.attempts then .adjust c else .fail .limit
    | none => .fail .limit := by
  have hin : ¬ (st.curStep.lower ≤ r.mean ∧ r.mean ≤ st.curStep.upper) := by omega
  simp only [evaluate, h, any_overRange, ho, Nat.not_lt.mpr hs, hin, decide_eq_true_eq]
  rfl

theorem evaluate_adjust {c : Channel} (hc : adjustChannel st.curStep.adjust = some c) (hy : st.adjustable x c = true)
    (ha : (st.ctx x).attempt < st.curStep.attempts) : st.evaluate x r = .adjust c := by
  rw [evaluate_outside h ho hs hm, hc]
  exact if_pos ⟨hy, ha⟩

theorem evaluate_limit (hn : st.curStep.attempts ≤ (st.ctx x).attempt ∨
    ∀ c, adjustChannel st.curStep.adjust = some c → st.adjustable x c = false) : st.evaluate x r = .fail .limit := by
  rw [evaluate_outside h ho hs hm]
  split
  · rename_i c hc
    refine if_neg fun ⟨hy, ha⟩ => ?_
    rcases hn with hn | hn
    · omega
    · simp [hn c hc] at hy
  · rfl

end Outside
end Measured
end Evaluate

/-! ### What the end of an accuracy window leads to (R79) -/

/-- The window is noted as the socket's last. -/
def noted (st : Station) (x : Socket) (r : WindowReport) : Station :=
  st.modCtx x fun c => { c with lastWindow := some (r.mean, r.spread) }

section Ends

variable {r : WindowReport}

theorem takeAccuracyEnd_retry {c : VerdictCause} (h : st.evaluate x r = .retry c) : st.takeAccuracyEnd x r =
    ((st.noted x r).modCtx x fun c => { c with attempt := c.attempt + 1 }).retry x := by
  simp only [takeAccuracyEnd, h]
  rfl

theorem takeAccuracyEnd_pass (h : st.evaluate x r = .pass) : st.takeAccuracyEnd x r =
    (st.noted x r).judged x .pass r.mean r.spread (st.ctx x).attempt (st.ctx x).adjustments := by
  simp only [takeAccuracyEnd, h, finalVerdict_eq_judged]
  rfl

theorem takeAccuracyEnd_fail {c : VerdictCause} (h : st.evaluate x r = .fail c) : st.takeAccuracyEnd x r =
    (st.noted x r).judged x (.fail c) r.mean r.spread (st.ctx x).attempt (st.ctx x).adjustments := by
  simp only [takeAccuracyEnd, h, finalVerdict_eq_judged]
  rfl

theorem takeAccuracyEnd_adjust {c : Channel} (h : st.evaluate x r = .adjust c) : st.takeAccuracyEnd x r =
    ((st.noted x r).modCtx x fun c => { c with run := .adjusting }).tellCru (.correction x c r.mean) := by
  simp only [takeAccuracyEnd, h]
  rfl

end Ends

/-- The context of a socket whose attempt has failed, with another to come. -/
def nextAttempt (st : Station) (x : Socket) (r : WindowReport) : RunCtx :=
  { st.ctx x with lastWindow := some (r.mean, r.spread), attempt := (st.ctx x).attempt + 1 }

section NextAttempt

variable {r : WindowReport} (hf : st.AttemptFails r) (ha : (st.ctx x).attempt < st.curStep.attempts)
include hf ha

theorem takeAccuracyEnd_again :
    st.takeAccuracyEnd x r = ((st.noted x r).modCtx x fun _ => st.nextAttempt x r).retry x := by
  obtain ⟨c, hc⟩ := evaluate_retry hf ha
  rw [takeAccuracyEnd_retry hc]
  congr 1
  refine modCtx_congr ?_
  rw [noted, ctx_modCtx_same]
  rfl

theorem takeAccuracyEnd_held (hp : st.bmr.paused = true) :
    st.takeAccuracyEnd x r = (st.noted x r).modCtx x fun _ => (st.nextAttempt x r).holds := by
  rw [takeAccuracyEnd_again hf ha]
  exact (retry_paused (st := (st.noted x r).modCtx x fun _ => st.nextAttempt x r) hp).trans (modCtx_modCtx _ x _ _)

omit hf ha in
theorem rdyHigh_nextAttempt : ((st.noted x r).modCtx x fun _ => st.nextAttempt x r).rdyHigh = st.rdyHigh := by
  rw [rdyHigh_modCtx (by rw [noted, ctx_modCtx_same]; rfl), noted, rdyHigh_modCtx rfl]

theorem takeAccuracyEnd_settles (hp : st.bmr.paused = false)
    (hd : (st.ctx x).disturbed = true ∨ st.rdyHigh = false) :
    st.takeAccuracyEnd x r = (st.noted x r).modCtx x fun _ => (st.nextAttempt x r).settles st.curStep.settle := by
  rw [takeAccuracyEnd_again hf ha]
  exact (retry_settles (st := (st.noted x r).modCtx x fun _ => st.nextAttempt x r) hp
    (by rwa [rdyHigh_nextAttempt, ctx_modCtx_same])).trans (modCtx_modCtx _ x _ _)

theorem takeAccuracyEnd_measures (hp : st.bmr.paused = false) (hd : (st.ctx x).disturbed = false)
    (hr : st.rdyHigh = true) :
    st.takeAccuracyEnd x r = ((st.noted x r).modCtx x fun _ => st.nextAttempt x r).measures x := by
  rw [takeAccuracyEnd_again hf ha]
  exact retry_measures (st := (st.noted x r).modCtx x fun _ => st.nextAttempt x r) hp
    (by rwa [ctx_modCtx_same]) (by rwa [rdyHigh_nextAttempt])

end NextAttempt

/-! ### The outcome of a correction (R80, R89) -/

theorem takeAdjusted_ok (he : st.stc.runEnded = none) : st.takeAdjusted x .ok = st.modCtx x fun c =>
    { c with run := .masked, adjustments := c.adjustments + 1, attempt := c.attempt + 1 } := by
  simp only [takeAdjusted, he]

theorem takeAdjusted_fails {o : AdjustOutcome} {f : VerdictCause} {m : Int} {d : Nat} (he : st.stc.runEnded = none)
    (hw : (st.ctx x).lastWindow = some (m, d))
    (ho : (o = .adjLimit ∧ f = .adjLimit) ∨ (o = .locked ∧ f = .locked) ∨ (o = .svcFail ∧ f = .svcFail)) :
    st.takeAdjusted x o = st.judged x (.fail f) m d (st.ctx x).attempt (st.ctx x).adjustments := by
  have fails : st.takeAdjusted x o = st.failAdjusted x f := by
    rcases ho with ⟨rfl, rfl⟩ | ⟨rfl, rfl⟩ | ⟨rfl, rfl⟩ <;> simp only [takeAdjusted, he]
  rw [fails, failAdjusted, finalVerdict_eq_judged, hw]
  rfl

theorem takeAdjusted_ended {o : AdjustOutcome} {e : EndCause} (he : st.stc.runEnded = some e) :
    st.takeAdjusted x o = st.modCtx x fun c => c.leaves (st.endOutCause x e) := by
  simp only [takeAdjusted, he]
  rfl

/-! ### Settling and the barrier (R72 to R74) -/

theorem settleExpiry_early {n : Nat} (hn : (st.ctx x).settle = some n) (h : 1 < n) : settleExpiry x st = st :=
  if_neg (by simp [hn, Timer.ranOut_some, h])

section RanOut

variable {n : Nat} (hr : (st.ctx x).run = .settling) (hn : (st.ctx x).settle = some n) (h : n ≤ 1)
include hr hn h

theorem settleExpiry_ready (hm : st.masked x = false) : settleExpiry x st = st.modCtx x RunCtx.toReady := by
  rw [settleExpiry, if_pos ⟨hr, by simpa [hn, Timer.ranOut_some] using h⟩, if_neg (by simp [hm])]

theorem settleExpiry_masked (hm : st.masked x = true) :
    settleExpiry x st = st.modCtx x fun c => { c with settle := none, waitMask := true } := by
  rw [settleExpiry, if_pos ⟨hr, by simpa [hn, Timer.ranOut_some] using h⟩, if_pos hm]

end RanOut

/-- The GCU has seen RDY rise. -/
def rdyRose (st : Station) : Station := { st with gcu := { st.gcu with rdy := true } }

theorem rdyRising_rises (hr : st.gcu.rdy = false) (hp : st.rdyPull = false) :
    st.rdyRising = st.rdyRose.turns st.rdyRose.measuringReady := by
  rw [rdyRising, if_pos ⟨hr, hp⟩]
  exact startReady_eq_turns st.rdyRose

theorem measuringReady_changes (u : Station) : u.turns u.measuringReady = { u with
    stc := { u.stc with ctx := (u.turns u.measuringReady).stc.ctx }
    gcu := { u.gcu with sockets := (u.turns u.measuringReady).gcu.sockets } } := by
  have hinc : (u.turns u.measuringReady).inc = u.inc := turns_inc_of_id (fun _ => rfl) fun _ => rfl
  refine (turns_changes_quietly (fun _ => rfl) fun _ => rfl).trans ?_
  rw [queueAfter_none fun _ => rfl, hinc]

theorem measuringReady_ready {u : Station} (h : (u.ctx x).run = .ready) :
    (u.turns u.measuringReady).ctx x = { u.ctx x with run := .measuring } ∧
      (u.turns u.measuringReady).gcuSocket x = { u.gcuSocket x with
        samples := [], window := windowFor u.curStep (u.profileKm x) u.runKr } := by
  simp [measuringReady, h]

theorem measuringReady_stays {u : Station} (h : (u.ctx x).run ≠ .ready) :
    (u.turns u.measuringReady).ctx x = u.ctx x ∧ (u.turns u.measuringReady).gcuSocket x = u.gcuSocket x := by
  simp [measuringReady, h]

end Station

/-! ### The statements -/

/-- Settles O36: the expiry of a settle timer by what it finds, the mask's end, and the barrier socket by socket. -/
theorem settledSocketsMeasureAtTheBarrier : Obligations.SettledSocketsMeasureAtTheBarrier := by
  refine ⟨fun s x n ha hr hn => ⟨fun hlt => ?_, fun hle hm => ?_, fun hle hm => ?_⟩,
    fun s x rest ha h hr hw => next_of_run rfl ha (Station.stcMaskEnd_settling h hr hw), fun s ha hrdy hpull => ?_,
    fun r km kr => ⟨fun h => ?_, fun h => ?_, fun h => ?_⟩⟩
  · exact next_of_run (g := id) rfl ha (Station.settleExpiry_early hn hlt)
  · exact next_of_run rfl ha (Station.settleExpiry_ready hr hn hle hm)
  · exact next_of_run rfl ha (Station.settleExpiry_masked hr hn hle hm)
  · refine answers_of_run rfl ha (Station.rdyRising_rises hrdy hpull)
      ⟨Station.measuringReady_changes s.st.rdyRose, fun x => ⟨fun hr => ?_, fun hr => ?_⟩⟩
    · exact Station.measuringReady_ready (u := s.st.rdyRose) hr
    · exact Station.measuringReady_stays (u := s.st.rdyRose) hr
  · simp [Station.windowFor, h]
  · simp [Station.windowFor, h]
  · simp [Station.windowFor, h]

/-- Settles O40: the outcomes of a correction, while the run is open and once it has ended; the end of the mask. -/
theorem adjustmentOutcomeActs : Obligations.AdjustmentOutcomeActs := by
  refine ⟨fun s x rest o ha h hr => ?_, fun s x rest ha h hr => ⟨fun hp => ?_, fun hp hd => ?_, fun hp hd hy => ?_⟩⟩
  · have ends : ∀ {g : Station → Station}, (s.st.stcLeft rest).takeAdjusted x o = g s.st →
        exec (.adjustmentOutcome x) s = .next (s.upd g) := fun hg =>
      next_of_run rfl ha ((Station.adjustmentOutcome_heard h hr).trans hg)
    exact ⟨fun he ho => ends (ho ▸ Station.takeAdjusted_ok he),
      fun f m d he hw ho => ends (Station.takeAdjusted_fails he hw ho), fun e he => ends (Station.takeAdjusted_ended he)⟩
  · exact next_of_run rfl ha ((Station.stcMaskEnd_masked h hr).trans (Station.retry_paused hp))
  · exact next_of_run rfl ha ((Station.stcMaskEnd_masked h hr).trans (Station.retry_settles hp hd))
  · exact next_of_run rfl ha ((Station.stcMaskEnd_masked h hr).trans (Station.retry_measures hp hd hy))

/-- Settles O39: each check of R79 where it decides; a creep or start window; the ends that are taken before voids. -/
theorem windowEndIsEvaluated : Obligations.WindowEndIsEvaluated := by
  refine ⟨fun s x rest r ha h hr => ?_, fun s x rest v n ha h hr => ?_,
    fun s x rest ha hr hk => ⟨fun r h => ?_, fun v n h => ?_⟩, fun st p => ⟨Station.beforeVoids_none, Station.beforeVoids_fold st p⟩⟩
  · intro p c noted tooHigh verdict
    have ends : ∀ {g : Station → Station}, (s.st.stcLeft rest).takeAccuracyEnd x r = g s.st →
        exec (.accuracyWindowEnd x) s = .next (s.upd g) := fun hg =>
      next_of_run rfl ha ((Station.accuracyWindowEnd_heard h hr).trans hg)
    refine ⟨fun hlt hf => ⟨fun hp => ?_, fun hp hd => ?_, fun hp hd hy => ?_⟩,
      fun hle => ⟨fun ht => ?_, fun ht ho => ?_, fun ht ho hs => ?_⟩,
      fun ht ho hs => ⟨fun hl hu => ?_, fun hm => ⟨fun ch hc hy hlt => ?_, fun hn => ?_⟩⟩⟩
    · exact ends (Station.takeAccuracyEnd_held hf hlt hp)
    · exact ends (Station.takeAccuracyEnd_settles hf hlt hp hd)
    · exact ends (Station.takeAccuracyEnd_measures hf hlt hp hd hy)
    · exact ends (Station.takeAccuracyEnd_fail (Station.evaluate_noPulse hle ht))
    · exact ends (Station.takeAccuracyEnd_fail (Station.evaluate_overRange hle ht ho))
    · exact ends (Station.takeAccuracyEnd_fail (Station.evaluate_spread hle ht ho hs))
    · exact ends (Station.takeAccuracyEnd_pass (Station.evaluate_pass ht ho hs hl hu))
    · exact ends (Station.takeAccuracyEnd_adjust (Station.evaluate_adjust ht ho hs hm hc hy hlt))
    · exact ends (Station.takeAccuracyEnd_fail (Station.evaluate_limit ht ho hs hm hn))
  · exact next_of_run rfl ha ((Station.timedWindowEnd_heard h hr).trans (Station.finalVerdict_eq_judged _ x v 0 0 1 0))
  · refine next_of_run rfl ha ((Station.accuracyWindowEnd_heard h hr).trans ?_)
    rw [Station.beforeVoids_single, Station.takeEnded_heard h (w := .accuracy r) (if_pos rfl) rfl rfl hr hk]
    rfl
  · refine next_of_run rfl ha ((Station.timedWindowEnd_heard h hr).trans ?_)
    rw [Station.beforeVoids_single, Station.takeEnded_heard h (w := .timed v) (if_pos rfl) rfl rfl hr hk]
    rfl

end Sys2Proof.Machine
end

section
/-! PROOFS. Joining (R65 to R69, R127): the station's JOIN, offered when no outcome is open, and the results of it. -/

namespace Sys2Proof.Machine

namespace Station

variable {st : Station} {rest : List StcMsg} {x : Socket}

/-! ### The station's JOIN (R65, R67) -/

/-- The sockets the JOIN names: joined, and not hit by a supervision fault since (R67, R86; log 17). -/
def joins (st : Station) (y : Socket) : Bool := st.stc.joinedMask.get y && decide ((st.incSocket y).joinFault = .none)

theorem joinMask_eq (st : Station) : st.joinMask = .tabulate st.joins := rfl

theorem newEntry_joinBody (st : Station) : newEntry st.bmr.runNo st.joinBody = st.joinFor st.joins st.stc.classes := by
  have codes : ∀ y, (st.joinFaultCode y).code = if st.enabled y = false then 1
      else if st.joins y then 0 else (st.incSocket y).joinFault.code := fun y => by
    simp only [joinFaultCode, joinMask_eq, Quad.get_tabulate]
    cases st.enabled y <;> cases st.joins y <;> rfl
  simp only [newEntry, joinBody, joinFor, joinMask_eq, Quad.get_tabulate, codes]

theorem outcomesComplete_iff :
    st.outcomesComplete = true ↔ ∀ y, (st.ctx y).run = .joining → st.stc.joinedMask.get y = true := by
  rw [outcomesComplete, all_sockets]
  refine forall_congr' fun y => ?_
  rw [Bool.or_eq_true, bne_iff_ne, imp_iff_not_or]

/-- The JOIN was placed before. -/
theorem placeJoinIfComplete_placed (h : st.stc.joinPlaced = true) : st.placeJoinIfComplete = st := if_neg (by simp [h])

/-- An outcome is still open. -/
theorem placeJoinIfComplete_waits {y : Socket} (hr : (st.ctx y).run = .joining) (hm : st.stc.joinedMask.get y = false) :
    st.placeJoinIfComplete = st :=
  if_neg fun h => by simp [outcomesComplete_iff.mp h.2 y hr] at hm

/-- No outcome is open: the JOIN is offered. -/
theorem placeJoinIfComplete_offers (hp : st.stc.joinPlaced = false)
    (hall : ∀ y, (st.ctx y).run = .joining → st.stc.joinedMask.get y = true) :
    ∃ l, st.placeJoinIfComplete = { st with
        stc := { st.stc with joinPlaced := true, joinedMask := .tabulate st.joins }, lkc := l } ∧
      st.lkc.TakesJoin l (st.joinFor st.joins st.stc.classes) := by
  obtain ⟨hst, takes⟩ := st.placeJoin_takes st.bmr.runNo (body := st.joinBody) rfl
  rw [newEntry_joinBody] at takes
  refine ⟨_, ?_, takes⟩
  rw [placeJoinIfComplete, if_pos ⟨hp, outcomesComplete_iff.mpr hall⟩]
  dsimp only
  rw [hst]
  rfl

/-! ### The run-opened notice and the table refusal (R65, R66) -/

/-- The contexts and the records of the join as the run-opened notice leaves them. -/
def runPrepared (st : Station) (h : RunHeader) (rest : List StcMsg) : Station := { st with stc := { st.stc with
  inbox := rest.filter fun m => !m.isWindowEnd
  joinedMask := .all4 false, classes := .all4 0, joinPlaced := false, slot := h.slot, runEnded := none
  ctx := .tabulate fun y =>
    { run := if st.enabled y then .joining else .idle, attempt := 1, adjustments := 0, disturbed := false,
      settle := none, settlePeriod := none, waitMask := false, lastWindow := none, outCause := none, verdicts := [] } } }

theorem stcRunOpened_front {h : RunHeader} (hi : st.stc.inbox = .runOpened h :: rest) :
    st.stcRunOpened = (st.runPrepared h rest).placeJoinIfComplete := by
  simp only [stcRunOpened, stcRunOpenedNotice, hi]
  rfl

theorem runPrepared_run (st : Station) (h : RunHeader) (rest : List StcMsg) (y : Socket) :
    ((st.runPrepared h rest).ctx y).run = if st.enabled y then .joining else .idle :=
  congrArg RunCtx.run (Quad.get_tabulate _ y)

/-- The table refusal, recorded at every socket. -/
def tableRefused (st : Station) (rest : List StcMsg) : Station := { st with
  stc := { st.stc with inbox := rest }
  inc := { st.inc with sockets := st.inc.sockets.map fun i => { i with joinFault := .tableMismatch } } }

theorem stcTableRefusal_heard {run : Byte} {fp : W32}
    (h : Heard StcMsg.overtakes st.stc.inbox (.tableRefusal run fp) rest) : st.stcTableRefusal =
      (st.tableRefused rest).placeJoin run (.join 0 fp (.all4 { cls := 0, fault := 9 })) :=
  stcNotice_heard (b := (run, fp)) h rfl rfl fun x hx => by cases x <;> simp_all [StcMsg.isNotice]

/-- With no socket enabled the notice leaves every context IDLE, and the JOIN to offer names none. -/
theorem runPrepared_disabled {h : RunHeader} (hd : ∀ y, st.enabled y = false) :
    (st.runPrepared h rest).stc.ctx = .all4
        { run := .idle, attempt := 1, adjustments := 0, disturbed := false, settle := none, settlePeriod := none,
          waitMask := false, lastWindow := none, outCause := none, verdicts := [] } ∧
      (st.runPrepared h rest).joins = (fun _ => false) ∧
      (st.runPrepared h rest).joinFor (fun _ => false) (.all4 0) = {
        run := st.bmr.runNo, body := .join 0 st.bmr.fingerprint (.all4 { cls := 0, fault := 1 }),
        place := .queued, withdrawn := false, counted := false } := by
  refine ⟨?_, ?_, ?_⟩
  · refine Quad.ext_get fun y => ?_
    rw [runPrepared, Quad.get_tabulate, Quad.get_all4, hd]
    rfl
  · funext y
    rw [joins, runPrepared, Quad.get_all4, Bool.false_and]
  · have enabled : ∀ y, (st.runPrepared h rest).enabled y = false := hd
    simp only [joinFor, enabled]
    rfl

/-! ### The join outcomes (R67) -/

theorem joinOutcome_heard {o : JoinOutcome} (h : Heard StcMsg.overtakes st.stc.inbox (.joinOutcome x o) rest) :
    joinOutcome x st = (st.stcLeft rest).takeJoinOutcome x o :=
  stcReport_heard (b := o) h rfl rfl (if_pos rfl) fun y hy => by cases y <;> simp_all [StcMsg.line]

/-- The outcome is recorded. -/
def outcomeTaken (st : Station) (x : Socket) : JoinOutcome → Station
  | .joined cls => { st with stc := { st.stc with
    joinedMask := st.stc.joinedMask.set x true, classes := st.stc.classes.set x cls } }
  | .fault _ => { st with stc := { st.stc with ctx := st.stc.ctx.set x { st.ctx x with run := .idle } } }

theorem takeJoinOutcome_joining (h : (st.ctx x).run = .joining) (o : JoinOutcome) :
    st.takeJoinOutcome x o = (st.outcomeTaken x o).placeJoinIfComplete := by
  cases o <;> exact if_pos h

/-- The outcome of one socket closes no other's. -/
theorem outcomeTaken_other {y : Socket} (o : JoinOutcome) (hy : y ≠ x) :
    (st.outcomeTaken x o).ctx y = st.ctx y ∧ (st.outcomeTaken x o).stc.joinedMask.get y = st.stc.joinedMask.get y := by
  cases o with
  | joined cls => exact ⟨rfl, Quad.get_set_other _ _ hy⟩
  | fault c => exact ⟨Quad.get_set_other _ _ hy, rfl⟩

/-- It closes its own: the socket is in the mask, or no longer JOINING. -/
theorem outcomeTaken_same (o : JoinOutcome) (h : ((st.outcomeTaken x o).ctx x).run = .joining) :
    (st.outcomeTaken x o).stc.joinedMask.get x = true := by
  cases o with
  | joined cls => exact Quad.get_set_same _ _ _
  | fault c => simp [outcomeTaken, ctx] at h

theorem outcomeTaken_waits {o : JoinOutcome}
    (h : ∃ y, y ≠ x ∧ (st.ctx y).run = .joining ∧ st.stc.joinedMask.get y = false) :
    (st.outcomeTaken x o).placeJoinIfComplete = st.outcomeTaken x o := by
  obtain ⟨y, hy, hr, hm⟩ := h
  obtain ⟨hctx, hmask⟩ := outcomeTaken_other o hy
  exact placeJoinIfComplete_waits (y := y) (by rw [hctx, hr]) (by rw [hmask, hm])

theorem outcomeTaken_all {o : JoinOutcome}
    (h : ∀ y, y ≠ x → (st.ctx y).run = .joining → st.stc.joinedMask.get y = true) (y : Socket)
    (hr : ((st.outcomeTaken x o).ctx y).run = .joining) : (st.outcomeTaken x o).stc.joinedMask.get y = true := by
  by_cases hy : y = x
  · subst hy
    exact outcomeTaken_same o hr
  · obtain ⟨hctx, hmask⟩ := outcomeTaken_other (st := st) o hy
    rw [hctx] at hr
    rw [hmask, h y hy hr]

theorem outcomeTaken_joins_joined (cls : W16) : (st.outcomeTaken x (.joined cls)).joins =
    fun y => ((y == x && true) || st.stc.joinedMask.get y) && decide ((st.incSocket y).joinFault = .none) := by
  funext y
  have mask : (st.outcomeTaken x (.joined cls)).stc.joinedMask.get y = ((y == x && true) || st.stc.joinedMask.get y) := by
    by_cases hy : y = x
    · simp [outcomeTaken, hy]
    · simp [outcomeTaken, hy, Quad.get_set_other]
  rw [joins, mask]
  rfl

theorem outcomeTaken_joins_fault (c : JoinFault) : (st.outcomeTaken x (.fault c)).joins =
    fun y => ((y == x && false) || st.stc.joinedMask.get y) && decide ((st.incSocket y).joinFault = .none) := by
  funext y
  rw [Bool.and_false, Bool.false_or]
  rfl

end Station

/-- Settles O32: a socket enabled keeps the JOIN waiting; with none it is offered; a table refusal offers one of fault
codes. -/
theorem runOpenedPreparesTheContexts : Obligations.RunOpenedPreparesTheContexts := by
  refine ⟨fun s h rest ha hi ⟨y, hy⟩ => ?_, fun s h rest ha hi hnone => ?_, fun s rest run fp ha h => ?_⟩
  · refine next_of_run rfl ha ((Station.stcRunOpened_front hi).trans ?_)
    exact Station.placeJoinIfComplete_waits (y := y) (by simp [Station.runPrepared_run, hy]) (Quad.get_all4 false y)
  · obtain ⟨l, hst, takes⟩ := Station.placeJoinIfComplete_offers (st := s.st.runPrepared h rest) rfl fun y hr => by
      simp [Station.runPrepared_run, hnone] at hr
    obtain ⟨hctx, hjoins, hentry⟩ := Station.runPrepared_disabled (h := h) (rest := rest) hnone
    simp only [hjoins, hctx] at hst takes
    exact answers_of_run rfl ha ((Station.stcRunOpened_front hi).trans hst) ⟨rfl, hentry ▸ takes⟩
  · intro j
    obtain ⟨hst, takes⟩ := (s.st.tableRefused rest).placeJoin_takes run
      (body := .join 0 fp (.all4 { cls := 0, fault := 9 })) rfl
    exact answers_of_run rfl ha (Station.stcTableRefusal_heard h) ⟨hst, takes⟩

/-- Settles O33: an outcome behind which another is open, and the last one. -/
theorem joinOutcomesBuildTheJoin : Obligations.JoinOutcomesBuildTheJoin := by
  intro s rest x ha hr
  have taken : ∀ {o : JoinOutcome}, Heard StcMsg.overtakes s.st.stc.inbox (.joinOutcome x o) rest →
      s.st.joinOutcome x = ((s.st.stcLeft rest).outcomeTaken x o).placeJoinIfComplete := fun h =>
    (Station.joinOutcome_heard h).trans (Station.takeJoinOutcome_joining (st := s.st.stcLeft rest) hr _)
  refine ⟨fun c h hy => next_of_run rfl ha ((taken h).trans (Station.outcomeTaken_waits hy)),
    fun cls h hy => next_of_run rfl ha ((taken h).trans (Station.outcomeTaken_waits hy)), fun o h hp hall => ?_⟩
  have hp' : ((s.st.stcLeft rest).outcomeTaken x o).stc.joinPlaced = false := by cases o <;> exact hp
  obtain ⟨l, hst, takes⟩ := Station.placeJoinIfComplete_offers hp' (Station.outcomeTaken_all hall)
  cases o with
  | joined cls =>
    rw [Station.outcomeTaken_joins_joined] at hst takes
    exact answers_of_run rfl ha ((taken h).trans hst) ⟨rfl, takes⟩
  | fault c =>
    rw [Station.outcomeTaken_joins_fault] at hst takes
    exact answers_of_run rfl ha ((taken h).trans hst) ⟨rfl, takes⟩

end Sys2Proof.Machine
end

section
/-! PROOFS. The result of the station's own JOIN (R68, R69, R127), and the local bypass (R86). -/

namespace Sys2Proof.Machine

namespace Station

variable {st u : Station} {rest : List StcMsg} {x y : Socket} {mask : Byte} {c : OutCause}

/-! ### The applied JOIN (R68, R127) -/

/-- The JOIN's mask names the JOINING socket. -/
def named (st : Station) (mask : Byte) (x : Socket) : Bool := mask.getLsbD x.val && (st.ctx x).run == .joining

theorem named_iff : st.named mask x = true ↔ mask.getLsbD x.val = true ∧ (st.ctx x).run = .joining := by simp [named]

theorem maskFlags_get (mask : Byte) (x : Socket) : (maskFlags mask).get x = mask.getLsbD x.val := Quad.get_tabulate _ x

/-- R68. -/
def joining (st : Station) (mask : Byte) (x : Socket) : SocketTurn where
  ctx := if st.named mask x then fun c => { c with run := .joined } else id

theorem joinApplied_eq_turns (st : Station) (mask : Byte) :
    (st.each fun x u => if (maskFlags mask).get x ∧ (u.ctx x).run = .joining then
      u.modCtx x fun c => { c with run := .joined } else u) = st.turns (st.joining mask) :=
  each_eq_turns fun x u h => by
    simp only [maskFlags_get, h.ctx, ← named_iff, joining]
    split
    · exact modCtx_eq_turn u x _
    · exact (turn_none u x).symm

theorem joinApplied_changes (st : Station) (mask : Byte) : st.turns (st.joining mask) = { st with
    stc := { st.stc with ctx := (st.turns (st.joining mask)).stc.ctx } } := by
  have hinc : (st.turns (st.joining mask)).inc = st.inc := turns_inc_of_id (fun _ => rfl) fun _ => rfl
  have hgcu : (st.turns (st.joining mask)).gcu = st.gcu := turns_gcu_of_id fun _ => rfl
  refine (turns_changes_quietly (fun _ => rfl) fun _ => rfl).trans ?_
  rw [queueAfter_none fun _ => rfl, hinc, hgcu]

/-- R127: the deferred BYPASS is placed. -/
def placing (st : Station) (x : Socket) : SocketTurn where
  ctx := id
  inc := fun i => { i with deferred := none }
  outbound := fun q => match (st.incSocket x).deferred with
    | some c => st.bypassPlaced q x c
    | none => q

theorem placeDeferred_eq_turns (st : Station) : st.each placeDeferred = st.turns st.placing :=
  each_eq_turns fun x u h => by
    have step : u.bypassStep = st.bypassStep := by simp only [bypassStep, h.bmr]
    simp only [placeDeferred, placing, h.incSocket]
    cases hd : (st.incSocket x).deferred with
    | none =>
      have kept : { u.incSocket x with deferred := none } = u.incSocket x := by rw [← hd, ← h.incSocket]
      simp [turn, kept]
    | some c =>
      simp [turn, placeBypass_eq, bypassPlaced, h.bmr, step, modInc]
      rfl

/-- The deferred BYPASSes are placed in logical order, and nothing is deferred any more. -/
theorem placing_changes (st : Station) : st.turns st.placing = { st with
    lkc := { st.lkc with outbound := queueAfter st.placing st.lkc.outbound }
    inc := { st.inc with sockets := st.inc.sockets.map fun i => { i with deferred := none } } } := by
  have hinc : (st.turns st.placing).inc.sockets = st.inc.sockets.map fun i => { i with deferred := none } :=
    Quad.ext_get fun x => (incSocket_turns x).trans (Quad.get_map _ _ x).symm
  have hgcu : (st.turns st.placing).gcu = st.gcu := turns_gcu_of_id fun _ => rfl
  have hctx : (st.turns st.placing).stc.ctx = st.stc.ctx := turns_ctx_of_id fun _ => rfl
  refine (turns_changes_quietly (fun _ => rfl) fun _ => rfl).trans ?_
  rw [hinc, hgcu, hctx]

/-- The applied JOIN, taken. -/
def joinApplied (u : Station) (mask : Byte) : Station := { u with
  stc := { u.stc with ctx := (u.turns (u.joining mask)).stc.ctx }
  lkc := { u.lkc with outbound := queueAfter u.placing u.lkc.outbound }
  inc := { u.inc with sockets := u.inc.sockets.map fun i => { i with deferred := none } } }

theorem ownJoinApplied_heard (h : Heard StcMsg.overtakes st.stc.inbox (.ownJoin true mask) rest) :
    st.ownJoinApplied = (st.stcLeft rest).joinApplied mask := by
  refine (stcNotice_heard (b := mask) h rfl rfl fun x hx => by cases x <;> simp_all [StcMsg.isNotice]).trans ?_
  rw [joinApplied_eq_turns, placeDeferred_eq_turns, placing_changes]
  have hplacing : ((st.stcLeft rest).turns ((st.stcLeft rest).joining mask)).placing = (st.stcLeft rest).placing := by
    rw [joinApplied_changes]
    rfl
  rw [hplacing, joinApplied_changes]
  rfl

theorem joinApplied_ctx (u : Station) (mask : Byte) (x : Socket) : (u.joinApplied mask).ctx x =
    if mask.getLsbD x.val = true ∧ (u.ctx x).run = .joining then { u.ctx x with run := .joined } else u.ctx x := by
  refine (ctx_turns (st := u) x).trans ?_
  simp only [joining, named_iff]
  split <;> rfl

/-! ### The ignored JOIN (R69, R127) -/

/-- R69. -/
def ignoring (st : Station) (mask : Byte) (x : Socket) : SocketTurn where
  ctx := if st.named mask x then RunCtx.toIdle else id
  inc := if st.named mask x then fun _ => st.endedLate x else id
  late := st.named mask x

theorem joinIgnored_eq_turns (st : Station) (mask : Byte) :
    (st.each fun x u => if (maskFlags mask).get x ∧ (u.ctx x).run = .joining then
      (u.endJoinLate x).modCtx x RunCtx.toIdle else u) = st.turns (st.ignoring mask) :=
  each_eq_turns fun x u h => by
    simp only [maskFlags_get, h.ctx, ← named_iff, endJoinLate_modCtx, h.endedLate, ignoring]
    cases hn : st.named mask x <;> simp [turn_none]

/-- What was deferred is dropped. -/
def undeferred (u : Station) : Station :=
  { u with inc := { u.inc with sockets := u.inc.sockets.map fun i => { i with deferred := none } } }

theorem ownJoinIgnored_heard (h : Heard StcMsg.overtakes st.stc.inbox (.ownJoin false mask) rest) :
    st.ownJoinIgnored = ((st.stcLeft rest).turns ((st.stcLeft rest).ignoring mask)).undeferred := by
  refine (stcNotice_heard (b := mask) h rfl rfl fun x hx => by cases x <;> simp_all [StcMsg.isNotice]).trans ?_
  rw [joinIgnored_eq_turns]
  rfl

@[simp] theorem undeferred_ctx (u : Station) (x : Socket) : u.undeferred.ctx x = u.ctx x := rfl

@[simp] theorem undeferred_incInbox (u : Station) : u.undeferred.inc.inbox = u.inc.inbox := rfl

@[simp] theorem undeferred_incSocket (u : Station) (x : Socket) :
    u.undeferred.incSocket x = { u.incSocket x with deferred := none } := Quad.get_map _ _ x

theorem ignoring_changes (u : Station) (mask : Byte) : (u.turns (u.ignoring mask)).undeferred = { u with
    stc := { u.stc with ctx := (u.turns (u.ignoring mask)).undeferred.stc.ctx }
    inc := { u.inc with
      sockets := (u.turns (u.ignoring mask)).undeferred.inc.sockets
      inbox := (u.turns (u.ignoring mask)).undeferred.inc.inbox } } := by
  have hgcu : (u.turns (u.ignoring mask)).gcu = u.gcu := turns_gcu_of_id fun _ => rfl
  have turned := turns_changes u (u.ignoring mask)
  rw [queueAfter_none fun _ => rfl, sluInboxAfter_none fun _ => rfl] at turned
  simp only [undeferred_incInbox, turns_incInbox]
  refine (congrArg undeferred turned).trans ?_
  rw [hgcu]
  rfl

theorem ignoring_named (h : u.named mask x = true) :
    (u.turns (u.ignoring mask)).undeferred.ctx x = { u.ctx x with run := .idle } ∧
      (u.turns (u.ignoring mask)).undeferred.incSocket x = { u.endedLate x with deferred := none } := by
  simp [ignoring, h, RunCtx.toIdle]

theorem ignoring_other (h : u.named mask x = false) :
    (u.turns (u.ignoring mask)).undeferred.ctx x = u.ctx x ∧
      (u.turns (u.ignoring mask)).undeferred.incSocket x = { u.incSocket x with deferred := none } := by
  simp [ignoring, h]

end Station

/-- Settles O34: the applied JOIN, and the ignored one by whether its mask names the socket. -/
theorem ownJoinResultMovesItsSockets : Obligations.OwnJoinResultMovesItsSockets := by
  refine fun s rest mask ha => ⟨fun h => ?_, fun h => ?_⟩
  · refine answers_of_run rfl ha (Station.ownJoinApplied_heard h) ⟨rfl, fun x => ?_, rfl⟩
    exact Station.joinApplied_ctx (s.st.stcLeft rest) mask x
  · have heard := Station.ownJoinIgnored_heard h
    refine answers_of_run rfl ha heard ⟨Station.ignoring_changes _ mask, ?_, fun x => ⟨fun hn => ?_, fun hn => ?_⟩⟩
    · exact Station.lateEndsKept_incInboxAfter _ ((s.st.stcLeft rest).ignoring mask)
    · exact Station.ignoring_named (u := s.st.stcLeft rest) (Station.named_iff.mpr hn)
    · exact Station.ignoring_other (u := s.st.stcLeft rest) (Bool.eq_false_iff.mpr (mt Station.named_iff.mp hn))

end Sys2Proof.Machine
end

section
/-! PROOFS. The local bypass and the mute notice (R67, R76, R86, R87). -/

namespace Sys2Proof.Machine

namespace Station

variable {st u : Station} {rest : List StcMsg} {x y : Socket} {c : OutCause}

theorem localBypass_heard (h : Heard StcMsg.overtakes st.stc.inbox (.bypass x c) rest) :
    localBypass x st = (st.stcLeft rest).takeBypassReport x c :=
  stcReport_heard (b := c) h rfl rfl (if_pos rfl) fun y hy => by cases y <;> simp_all [StcMsg.line]

/-! ### A stepping socket (R76, R86) -/

/-- The socket is out, its window voided and its VERDICT withdrawn. -/
def bypassed (u : Station) (x : Socket) (c : OutCause) : Station :=
  u.turn x { ctx := RunCtx.leaves c, gcu := GcuSocket.voided, outbound := verdictsWithdrawn (· == x) }

/-- And, unless it was shed, the others are disturbed. -/
def bypassTaken (u : Station) (x : Socket) (c : OutCause) : Station :=
  if c = .shed then u.bypassed x c else (u.bypassed x c).disturb

theorem takeBypassReport_stepping (h : (st.ctx x).run.stepping = true) : st.takeBypassReport x c =
    (st.beforeVoids fun y => y == x || c != .shed).bypassTaken x c := by
  have turn : ∀ v : Station, ((v.voidWindow x).withdrawVerdict x).modCtx x (RunCtx.toOut c) = v.bypassed x c := fun v => by
    simp only [voidWindow_eq, withdrawVerdict_eq, verdictWithdrawn_eq, bypassed, Station.turn, id, set_incSocket_self]
    rfl
  rw [takeBypassReport, if_pos h]
  simp only [turn]
  rfl

theorem bypassed_changes (u : Station) (x : Socket) (c : OutCause) : u.bypassed x c = { u with
    stc := { u.stc with ctx := (u.bypassed x c).stc.ctx }
    lkc := { u.lkc with outbound := u.verdictWithdrawn x }
    gcu := { u.gcu with sockets := (u.bypassed x c).gcu.sockets } } := by
  rw [verdictWithdrawn_eq]
  simp [bypassed, turn]

theorem bypassTaken_changes (u : Station) (x : Socket) (c : OutCause) : u.bypassTaken x c = { u with
    stc := { u.stc with ctx := (u.bypassTaken x c).stc.ctx }
    lkc := { u.lkc with outbound := u.verdictWithdrawn x }
    gcu := { u.gcu with sockets := (u.bypassTaken x c).gcu.sockets } } := by
  rw [bypassTaken]
  split
  · exact bypassed_changes u x c
  · rw [disturb_changes, bypassed_changes]

theorem bypassed_same (u : Station) (x : Socket) (c : OutCause) :
    (u.bypassed x c).ctx x = (u.ctx x).leaves c ∧ (u.bypassed x c).gcuSocket x = (u.gcuSocket x).voided :=
  ⟨Quad.get_set_same _ _ _, Quad.get_set_same _ _ _⟩

theorem bypassed_other (h : y ≠ x) :
    (u.bypassed x c).ctx y = u.ctx y ∧ (u.bypassed x c).gcuSocket y = u.gcuSocket y :=
  ⟨Quad.get_set_other _ _ h, Quad.get_set_other _ _ h⟩

theorem bypassTaken_ctx_same : (u.bypassTaken x c).ctx x = (u.ctx x).leaves c := by
  rw [bypassTaken]
  split
  · exact (bypassed_same u x c).1
  · rw [disturb_ctx, (bypassed_same u x c).1, RunCtx.disturbedBy_leaves]

theorem bypassTaken_shed (h : y ≠ x) : (u.bypassTaken x .shed).ctx y = u.ctx y := (bypassed_other h).1

theorem bypassTaken_disturbs (h : y ≠ x) (hc : c ≠ .shed) :
    (u.bypassTaken x c).ctx y = (u.ctx y).disturbedBy u.curStep.settle := by
  rw [bypassTaken, if_neg hc, disturb_ctx, (bypassed_other h).1]
  rfl

theorem bypassTaken_gcuSocket (y : Socket) : (u.bypassTaken x c).gcuSocket y =
    if y == x || (c != .shed && (u.ctx y).run == .measuring) then (u.gcuSocket y).voided else u.gcuSocket y := by
  rw [bypassTaken]
  by_cases hy : y = x
  · obtain ⟨hctx, hgcu⟩ := bypassed_same u x c
    split
    · simp [hy, hgcu]
    · rw [disturb_gcuSocket, hy, hctx, hgcu]
      simp [RunCtx.leaves]
  · obtain ⟨hctx, hgcu⟩ := bypassed_other (u := u) (c := c) hy
    split
    · rename_i hc
      rw [hgcu]
      simp [hy, hc]
    · rename_i hc
      rw [disturb_gcuSocket, hctx, hgcu]
      simp [hy, hc]

/-! ### A socket that is not stepping (R67, R86) -/

theorem takeBypassReport_out (h : (st.ctx x).run = .joined ∨
      ((st.ctx x).run = .joining ∧ st.stc.joinPlaced = true ∧ st.stc.joinedMask.get x = true)) :
    st.takeBypassReport x c = st.modCtx x fun k => k.leaves c := by
  rcases h with hr | ⟨hr, hp, hm⟩
  · simp [takeBypassReport, hr, RunState.stepping]
    rfl
  · simp [takeBypassReport, hr, hp, hm, RunState.stepping]
    rfl

theorem takeBypassReport_none (h : (st.ctx x).run = .idle ∨ (st.ctx x).run = .out ∨ (st.ctx x).run = .done ∨
    (st.ctx x).run = .sealed ∨ (st.ctx x).run.inSealing = true) : st.takeBypassReport x c = st := by
  have stays : (st.ctx x).run.stepping = false ∧ (st.ctx x).run ≠ .joined ∧ (st.ctx x).run ≠ .joining := by
    generalize (st.ctx x).run = r at h ⊢
    revert h
    cases r <;> decide
  obtain ⟨hs, hd, hj⟩ := stays
  simp [takeBypassReport, hs, hd, hj]

/-- The socket's join has ended: it is in no mask and IDLE. -/
def joinDropped (st : Station) (x : Socket) : Station := { st with stc := { st.stc with
  joinedMask := st.stc.joinedMask.set x false, ctx := st.stc.ctx.set x { st.ctx x with run := .idle } } }

theorem takeBypassReport_joining (hr : (st.ctx x).run = .joining)
    (h : ¬ (st.stc.joinPlaced = true ∧ st.stc.joinedMask.get x = true)) :
    st.takeBypassReport x c = (st.joinDropped x).placeJoinIfComplete := by
  have hs : (st.ctx x).run.stepping = false := by rw [hr]; rfl
  have hd : (st.ctx x).run ≠ .joined := by rw [hr]; decide
  rw [takeBypassReport, if_neg (by simp [hs]), if_neg hd, if_pos hr, if_neg h]
  rfl

theorem joinDropped_other (h : y ≠ x) : (st.joinDropped x).ctx y = st.ctx y ∧
    (st.joinDropped x).stc.joinedMask.get y = st.stc.joinedMask.get y :=
  ⟨Quad.get_set_other _ _ h, Quad.get_set_other _ _ h⟩

theorem joinDropped_all (h : ∀ y, y ≠ x → (st.ctx y).run = .joining → st.stc.joinedMask.get y = true) (y : Socket)
    (hr : ((st.joinDropped x).ctx y).run = .joining) : (st.joinDropped x).stc.joinedMask.get y = true := by
  by_cases hy : y = x
  · simp [hy, joinDropped, ctx] at hr
  · obtain ⟨hctx, hmask⟩ := joinDropped_other (st := st) hy
    rw [hctx] at hr
    rw [hmask, h y hy hr]

theorem joinDropped_joins : (st.joinDropped x).joins =
    fun y => y != x && st.stc.joinedMask.get y && decide ((st.incSocket y).joinFault = .none) := by
  funext y
  have mask : (st.joinDropped x).stc.joinedMask.get y = (y != x && st.stc.joinedMask.get y) := by
    by_cases hy : y = x
    · simp [joinDropped, hy]
    · simp [joinDropped, hy, Quad.get_set_other]
  rw [joins, mask]
  rfl

/-! ### The mute notice (R87) -/

/-- A report that belongs to no line overtakes all but a run-opened notice and its like. -/
theorem stcReport_noLine {β : Type} {b : β} {f : β → Station → Station} {pick : StcMsg → Option β} {m : StcMsg}
    (h : Heard StcMsg.overtakes st.stc.inbox m rest) (hn : m.isNotice = false) (hm : pick m = some b)
    (hp : ∀ y, y ≠ m → pick y = none) : st.stcReport none pick f = f b (st.stcLeft rest) := by
  have taken := takeFirst_heard h hm
    (holds := fun y => y.isRunOpened || ((none : Option ReportLine).isSome && y.line == none)) fun y hy => by
      simp [StcMsg.overtakes, hn] at hy
      obtain ⟨⟨hopened, hne⟩, -⟩ := hy
      exact ⟨hp y hne, by simp [hopened]⟩
  simp only [stcReport, taken]
  rfl

theorem muteNotice_heard (h : Heard StcMsg.overtakes st.stc.inbox .mute rest) :
    st.muteNotice = { st with stc := { st.stc with inbox := rest, muted := true } } :=
  stcReport_noLine (b := ()) h rfl rfl fun y hy => by cases y <;> simp_all

end Station

/-- Settles O42: the bypass by the run state it finds, and the mute notice. -/
theorem localBypassAndMuteAct : Obligations.LocalBypassAndMuteAct := by
  refine ⟨fun s x rest c ha h => ?_, fun s rest ha h => ?_⟩
  · have takes : ∀ {st : Station}, (s.st.stcLeft rest).takeBypassReport x c = st → s.st.localBypass x = st := fun he =>
      (Station.localBypass_heard h).trans he
    refine ⟨fun hs => ?_, fun ho => next_of_run rfl ha (takes (Station.takeBypassReport_out (st := s.st.stcLeft rest) ho)),
      fun hr hw => ?_, fun hr hp hall => ?_,
      fun hn => next_of_run rfl ha (takes (Station.takeBypassReport_none (st := s.st.stcLeft rest) hn))⟩
    · intro u voids
      have taken := takes (Station.takeBypassReport_stepping (st := s.st.stcLeft rest) hs)
      change _ = u.bypassTaken x c at taken
      clear_value u
      exact answers_of_run rfl ha taken ⟨u.bypassTaken_changes x c, Station.bypassTaken_ctx_same,
        Station.bypassTaken_gcuSocket, fun y hy => ⟨fun hc => hc ▸ Station.bypassTaken_shed hy,
          Station.bypassTaken_disturbs hy⟩⟩
    · have ends := Station.takeBypassReport_joining (c := c) (st := s.st.stcLeft rest) hr
      refine next_of_run rfl ha (takes ((ends fun hpm => ?_).trans ?_))
      · rcases hw with ⟨-, hm⟩ | ⟨hp, -⟩
        · exact absurd (hpm.2.symm.trans hm) (by decide)
        · exact absurd (hpm.1.symm.trans hp) (by decide)
      · rcases hw with ⟨hp, -⟩ | ⟨-, y, hy, hyr, hym⟩
        · exact Station.placeJoinIfComplete_placed hp
        · obtain ⟨hctx, hmask⟩ := Station.joinDropped_other (st := s.st.stcLeft rest) hy
          exact Station.placeJoinIfComplete_waits (y := y) (hctx ▸ hyr) (hmask.trans hym)
    · intro joined
      obtain ⟨l, hst, offered⟩ := Station.placeJoinIfComplete_offers (st := (s.st.stcLeft rest).joinDropped x) hp
        (Station.joinDropped_all hall)
      rw [Station.joinDropped_joins] at hst offered
      exact answers_of_run rfl ha (takes ((Station.takeBypassReport_joining (st := s.st.stcLeft rest) hr
        fun hpm => absurd (hpm.1.symm.trans hp) (by decide)).trans hst)) ⟨rfl, offered⟩
  · exact answers_of_run rfl ha (Station.muteNotice_heard h) ⟨rfl, by simp [Station.rdyPull]⟩

end Sys2Proof.Machine
end

section
/-! PROOFS. Pulses and the windows they drive (R90, R91, R97, R98, R106, R107), and the error of the gate they close (R100,
R101). -/

namespace Sys2Proof.Machine

/-! ### The error of a gate (R100, R101) -/

theorem gateSample_gate (q : GateParams) (n : Nat) (c : W32) : (gateSample q n c).gate = n := by
  simp only [gateSample]
  split_ifs <;> rfl

theorem gateSample_count (q : GateParams) (n : Nat) (c : W32) : (gateSample q n c).count = some c := by
  simp only [gateSample]
  split_ifs <;> rfl

/-- With a count of 0 the error has no value, and the sample stands at the upper bound. -/
theorem gateSample_zero {q : GateParams} {c : W32} (hz : c.toNat * q.km = 0) (n : Nat) :
    gateSample q n c = { gate := n, count := some c, error := Config.errorMax, status := .overRange } := if_pos hz

section Rounded

variable {q : GateParams} {c : W32} {e : Int} (hd : 0 < c.toNat * q.km)
  (hr : RoundsTo (1000000 * ((q.n * q.kr : Nat) - (c.toNat * q.km : Nat) : Int)) (c.toNat * q.km : Nat) e) (n : Nat)

include hd hr

/-- The error is held to its bounds after it is rounded. -/
theorem gateSample_bounded : gateSample q n c =
    if Config.errorMax < e then { gate := n, count := some c, error := Config.errorMax, status := .overRange }
    else if e < -Config.errorMax then { gate := n, count := some c, error := -Config.errorMax, status := .overRange }
    else { gate := n, count := some c, error := e, status := .ok } := by
  rw [← roundHalfAway_eq hd hr]
  exact if_neg hd.ne'

theorem gateSample_within (hlow : -Config.errorMax ≤ e) (hhigh : e ≤ Config.errorMax) :
    gateSample q n c = { gate := n, count := some c, error := e, status := .ok } := by
  rw [gateSample_bounded hd hr, if_neg hhigh.not_gt, if_neg hlow.not_gt]

theorem gateSample_above (h : Config.errorMax < e) :
    gateSample q n c = { gate := n, count := some c, error := Config.errorMax, status := .overRange } := by
  rw [gateSample_bounded hd hr, if_pos h]

theorem gateSample_below (h : e < -Config.errorMax) :
    gateSample q n c = { gate := n, count := some c, error := -Config.errorMax, status := .overRange } := by
  have not_above : ¬ Config.errorMax < e := by
    simp only [Config.errorMax] at h ⊢
    omega
  rw [gateSample_bounded hd hr, if_neg not_above, if_pos h]

end Rounded

/-- Settles O44: a zero denominator, then the rounded error within its bounds, above them and below them. -/
theorem gateErrorIsRounded : Obligations.GateErrorIsRounded := by
  intro q n c den num a
  have settled : ∀ {e : Int} {u : SampleStatus}, a = { gate := n, count := some c, error := e, status := u } →
      a.status = u ∧ a.error = e := fun h => ⟨congrArg Sample.status h, congrArg Sample.error h⟩
  refine ⟨gateSample_gate q n c, gateSample_count q n c, fun hz => settled (gateSample_zero (Int.ofNat_eq_zero.mp hz) n),
    fun hpos e hr => ?_⟩
  have hd : 0 < c.toNat * q.km := Int.natCast_pos.mp hpos
  exact ⟨fun h => settled (gateSample_within hd hr n (show -999999 ≤ e by omega) (show e ≤ 999999 by omega)),
    fun h => settled (gateSample_above hd hr n h), fun h => settled (gateSample_below hd hr n h)⟩

namespace Station

variable {st : Station} {p : Position} {x : Socket} {q : GateParams} {g : OpenGate} {w t n : Nat}

/-! ### A meter pulse at its position (R90, R111) -/

theorem meterPulse_reaches (hp : st.socketAt p = some x) (he : st.enabled x = true) (hm : st.masked x = false) :
    st.meterPulse p = st.pulseAt x := by
  simp [meterPulse, hp, he, hm]

theorem meterPulse_ignored (h : ∀ x, st.socketAt p = some x → st.enabled x = false ∨ st.masked x = true) :
    st.meterPulse p = st := by
  unfold meterPulse
  cases hp : st.socketAt p with
  | none => rfl
  | some x =>
    refine if_neg fun ⟨enabled, unmasked⟩ => ?_
    rcases h x hp with disabled | masked
    · simp [disabled] at enabled
    · simp [masked] at unmasked

/-! ### A pulse at each kind of window (R97, R98, R106, R107) -/

theorem pulseAt_none (hw : (st.gcuSocket x).window = .none) : st.pulseAt x = st := by
  simp only [pulseAt, hw]

/-- The first pulse opens gate 1. -/
theorem pulseAt_waitFirst (hw : (st.gcuSocket x).window = .accuracy q none t) :
    st.pulseAt x = st.modGcu x fun h =>
      { h with window := .accuracy q (some { number := 1, pulses := 0, openedAt := st.gcu.refCount }) t } := by
  simp only [pulseAt, hw]

theorem pulseAt_gating (hw : (st.gcuSocket x).window = .accuracy q (some g) t) : st.pulseAt x = st.gatePulse x q g t := by
  simp only [pulseAt, hw]

theorem pulseAt_creep_first (hw : (st.gcuSocket x).window = .creep w t 0) :
    st.pulseAt x = st.modGcu x fun h => { h with window := .creep w t 1 } := by
  simp only [pulseAt, hw, if_pos]

theorem pulseAt_creep_second (hw : (st.gcuSocket x).window = .creep w t (n + 1)) :
    st.pulseAt x = st.endTimed x (.fail .creep) 2 := by
  simp only [pulseAt, hw]
  exact if_neg (Nat.succ_ne_zero n)

theorem pulseAt_start (hw : (st.gcuSocket x).window = .start w t n) : st.pulseAt x = st.endTimed x .pass 1 := by
  simp only [pulseAt, hw]

/-! ### A pulse of an open gate (R98) -/

theorem gatePulse_counts (hn : g.pulses + 1 < q.n) :
    st.gatePulse x q g t = st.modGcu x fun h =>
      { h with window := .accuracy q (some { g with pulses := g.pulses + 1 }) t } := if_pos hn

/-- The last pulse of a gate that is not the last closes it and opens the next. -/
theorem gatePulse_next (hn : q.n ≤ g.pulses + 1) (hs : g.number < q.s) :
    st.gatePulse x q g t = st.modGcu x fun h => { h with
      window := .accuracy q (some { number := g.number + 1, pulses := 0, openedAt := st.gcu.refCount }) q.timeoutMs
      samples := (st.gcuSocket x).samples ++ [gateSample q g.number (st.gcu.refCount - g.openedAt)] } :=
  (if_neg hn.not_gt).trans (if_pos hs)

/-- The last pulse of the last gate ends the window. -/
theorem gatePulse_ends (hn : q.n ≤ g.pulses + 1) (hs : q.s ≤ g.number) :
    st.gatePulse x q g t = st.endAccuracy x false
      ((st.gcuSocket x).samples ++ [gateSample q g.number (st.gcu.refCount - g.openedAt)]) :=
  (if_neg hn.not_gt).trans (if_neg hs.not_gt)

end Station

/-- Settles O43: the reference pulse; a meter pulse that is ignored; and one that reaches a window, by the window's kind. -/
theorem pulsesDriveTheWindows : Obligations.PulsesDriveTheWindows := by
  refine ⟨fun s ha => next_of_run rfl ha rfl,
    fun s p ha hi => next_of_run (g := id) rfl ha (Station.meterPulse_ignored hi), fun s p x ha hp he hm => ?_⟩
  intro now timed
  have reaches : ∀ {f : Station → Station}, s.st.pulseAt x = f s.st → exec (.meterPulse p) s = .next (s.upd f) :=
    fun hf => next_of_run rfl ha ((Station.meterPulse_reaches hp he hm).trans hf)
  refine ⟨fun hw => reaches (f := id) (Station.pulseAt_none hw), fun q t hw => reaches (Station.pulseAt_waitFirst hw),
    fun q g t hw => ?_, fun w t hw => reaches (Station.pulseAt_creep_first hw),
    fun w t n hw => reaches (Station.pulseAt_creep_second hw), fun w t n hw => reaches (Station.pulseAt_start hw)⟩
  have gating := Station.pulseAt_gating hw
  exact ⟨fun hn => reaches (gating.trans (Station.gatePulse_counts hn)),
    fun hn hs => reaches (gating.trans (Station.gatePulse_next hn hs)),
    fun hn hs => reaches (gating.trans (Station.gatePulse_ends hn hs))⟩

end Sys2Proof.Machine
end

section
/-! PROOFS. The ends of windows by their timers (R102, R103, R106, R107). -/

namespace Sys2Proof.Machine

/-- The number of the gate an accuracy window waits in; before the first pulse it waits for gate 1. -/
def gateNumber (g : Option OpenGate) : Nat := (g.map OpenGate.number).getD 1

namespace Station

variable {st : Station} {x : Socket} {q : GateParams} {g : Option OpenGate} {w t n : Nat}

/-! ### The gate timeout (R102) -/

theorem gateTimeout_ends (hw : (st.gcuSocket x).window = .accuracy q g t) (ht : t ≤ 1) :
    st.gateTimeout x = st.endAccuracy x true ((st.gcuSocket x).samples ++ [noPulseSample (gateNumber g)]) := by
  simp only [gateTimeout, hw, if_pos ht]
  cases g <;> rfl

/-- The timer has been restarted for the next gate. -/
theorem gateTimeout_restarted (hw : (st.gcuSocket x).window = .accuracy q g t) (ht : 1 < t) : st.gateTimeout x = st := by
  simp only [gateTimeout, hw, if_neg ht.not_ge]

theorem gateTimeout_none (hw : (st.gcuSocket x).window = .none) : st.gateTimeout x = st := by
  simp only [gateTimeout, hw]

/-! ### The creep and the start window timers (R106, R107) -/

theorem creepTimer_ends (hw : (st.gcuSocket x).window = .creep w t n) : st.creepTimer x = st.endTimed x .pass n := by
  simp only [creepTimer, hw]

theorem creepTimer_none (hw : (st.gcuSocket x).window = .none) : st.creepTimer x = st := by
  simp only [creepTimer, hw]

theorem startTimer_ends (hw : (st.gcuSocket x).window = .start w t n) :
    st.startTimer x = st.endTimed x (.fail .noStart) n := by
  simp only [startTimer, hw]

theorem startTimer_none (hw : (st.gcuSocket x).window = .none) : st.startTimer x = st := by
  simp only [startTimer, hw]

end Station

/-- Settles O45: the report's mean and spread, then each timer by the window it finds. -/
theorem windowTimersReport : Obligations.WindowTimersReport := by
  refine ⟨fun l => ?_, fun s x ha => ?_⟩
  · intro errors
    exact ⟨rfl, fun hn => by rw [hn]; exact ⟨rfl, rfl⟩, fun m hn hm => meanOf_eq hn hm,
      fun low high hl hh hb => spreadOf_eq hl hh hb⟩
  · intro timed
    refine ⟨fun q g t hw => ?_, fun w t n hw => next_of_run rfl ha (Station.creepTimer_ends hw),
      fun w t n hw => next_of_run rfl ha (Station.startTimer_ends hw), fun hw => ?_⟩
    · intro number l
      have named : number = gateNumber g := by cases g <;> rfl
      clear_value number
      subst named
      exact ⟨fun ht => next_of_run rfl ha (Station.gateTimeout_ends hw ht),
        fun ht => next_of_run (g := id) rfl ha (Station.gateTimeout_restarted hw ht)⟩
    · exact ⟨next_of_run (g := id) rfl ha (Station.gateTimeout_none hw),
        next_of_run (g := id) rfl ha (Station.creepTimer_none hw), next_of_run (g := id) rfl ha (Station.startTimer_none hw)⟩

end Sys2Proof.Machine
end

section
/-! PROOFS. The pulse mask (R93, R94, R160) and the run-opened notice at the GCU (R108). -/

namespace Sys2Proof.Machine

namespace Station

variable {st : Station} {x : Socket} {n : Nat} {rest : List GcuMsg}

/-! ### The mask runs down (R93, R160) -/

theorem tick_mask (st : Station) (x : Socket) : (st.tick.gcuSocket x).mask = (st.gcuSocket x).mask.tick :=
  congrArg GcuSocket.mask (Quad.get_map GcuSocket.elapse st.gcu.sockets x)

theorem tick_gcuInbox (st : Station) : st.tick.gcu.inbox = st.gcu.inbox.map GcuMsg.elapse := rfl

/-! ### The mask's end (R94) -/

theorem pulseMaskEnd_ends (hm : (st.gcuSocket x).mask = some n) (hn : n ≤ 1)
    (hw : ∀ k, .writeBurstEnd x k ∉ st.gcu.inbox) :
    st.pulseMaskEnd x = (st.modGcu x fun g => { g with mask := none }).tellStc (.maskEnd x) := by
  have none_waits : ¬ ∃ k, GcuMsg.writeBurstEnd x k ∈ st.gcu.inbox := not_exists.mpr hw
  refine if_pos ⟨by rw [hm, Timer.ranOut_some]; exact decide_eq_true hn, ?_⟩
  exact Bool.eq_false_iff.mpr (mt maskLeft_waits.mp none_waits)

/-- A later write burst has started the mask again: in the GCU, or by a report that waits. -/
theorem pulseMaskEnd_restarted (hm : (st.gcuSocket x).mask = some n)
    (hr : 1 < n ∨ ∃ k, .writeBurstEnd x k ∈ st.gcu.inbox) : st.pulseMaskEnd x = st := by
  refine if_neg fun ⟨ran_out, none_waits⟩ => ?_
  rcases hr with hn | waits
  · rw [hm, Timer.ranOut_some, decide_eq_true_iff] at ran_out
    omega
  · exact Bool.eq_false_iff.mp none_waits (maskLeft_waits.mpr waits)

/-! ### The run-opened notice (R108) -/

theorem gcuRunOpened_heard {h : RunHeader} (hh : Heard GcuMsg.overtakes st.gcu.inbox (.runOpened h) rest) :
    st.gcuRunOpened = { st with gcu := { st.gcu with
      inbox := rest, sockets := st.gcu.sockets.map fun g => { g with window := .none, samples := [] } } } := by
  unfold gcuRunOpened
  rw [takeFirst_heard (b := ()) hh rfl fun y hy => by cases y <;> simp_all [GcuMsg.overtakes]]

end Station

/-- Settles O46: the report of a write burst's end, the millisecond, the mask's end and the run-opened notice. -/
theorem maskFollowsWriteBursts : Obligations.MaskFollowsWriteBursts := by
  refine ⟨fun s x left rest ha h => next_of_run rfl ha (Station.writeBurstEnd_heard h), fun st x => ⟨?_, ?_⟩,
    fun s x n ha hm => ⟨fun hn hw => next_of_run rfl ha (Station.pulseMaskEnd_ends hm hn hw),
      fun hr => next_of_run (g := id) rfl ha (Station.pulseMaskEnd_restarted hm hr)⟩,
    fun s h rest ha hh => next_of_run rfl ha (Station.gcuRunOpened_heard hh)⟩
  · rw [Station.tick_mask]
    cases (st.gcuSocket x).mask <;> rfl
  · rw [Station.tick_gcuInbox]
    exact List.map_congr_left fun m _ => by cases m <;> rfl

end Sys2Proof.Machine
end

section
/-! PROOFS. The turn of the Insertion Controller at one socket (chapter 5): what it writes, what it tells the STC, what it leaves
of the outbound queue, and what the turns of all four sockets leave of the station. -/

namespace Sys2Proof.Machine

/-- What the INC does with one socket: to the socket's part of the INC, to the outbound queue, and what it tells the STC. -/
structure IncTurn where
  inc : IncSocket → IncSocket := id
  tells : Option StcMsg := none
  outbound : List OutEntry → List OutEntry := id

namespace Station

/-- The INC takes socket `x`. -/
def incTurn (st : Station) (x : Socket) (t : IncTurn) : Station := { st with
  inc := { st.inc with sockets := st.inc.sockets.set x (t.inc (st.incSocket x)) }
  stc := { st.stc with inbox := st.stc.inbox ++ t.tells.toList }
  lkc := { st.lkc with outbound := t.outbound st.lkc.outbound } }

/-- The INC takes every socket. -/
def incTurns (st : Station) (T : Socket → IncTurn) : Station := st.each fun x u => u.incTurn x (T x)

variable {st u : Station} {x y : Socket} {T : Socket → IncTurn}

/-! ### One socket -/

theorem modInc_eq_incTurn (st : Station) (x : Socket) (f : IncSocket → IncSocket) :
    st.modInc x f = st.incTurn x { inc := f } := by
  simp [incTurn, modInc, incSocket]

/-- A socket that is left as it stands. -/
theorem incTurn_none (st : Station) (x : Socket) : st.incTurn x {} = st := by
  simp [incTurn]

/-- Two changes of one socket are one. -/
theorem modInc_modInc (st : Station) (x : Socket) (f g : IncSocket → IncSocket) :
    (st.modInc x f).modInc x g = st.modInc x fun i => g (f i) := by
  simp [modInc]

/-! ### What the INC finds when it comes to a socket -/

/-- The station `u` is to the INC at socket `x` what `st` is: all that it reads there is the same. -/
structure SameForInc (st : Station) (x : Socket) (u : Station) : Prop where
  cfl : u.cfl = st.cfl
  bmr : u.bmr = st.bmr
  ctx : u.stc.ctx = st.stc.ctx
  incSocket : u.incSocket x = st.incSocket x

namespace SameForInc

theorem refl (st : Station) (x : Socket) : st.SameForInc x st := ⟨rfl, rfl, rfl, rfl⟩

/-- The turn of another socket leaves it so. -/
theorem incTurn (h : st.SameForInc x u) (hy : x ≠ y) (t : IncTurn) : st.SameForInc x (u.incTurn y t) where
  cfl := h.cfl
  bmr := h.bmr
  ctx := h.ctx
  incSocket := (Quad.get_set_other _ _ hy).trans h.incSocket

variable (h : st.SameForInc x u)
include h

theorem enabled (y : Socket) : u.enabled y = st.enabled y := by simp only [Station.enabled, h.cfl]

theorem shedRank (y : Socket) : u.shedRank y = st.shedRank y := by simp only [Station.shedRank, h.cfl]

theorem bypassPlaced (q : List OutEntry) (y : Socket) (c : OutCause) : u.bypassPlaced q y c = st.bypassPlaced q y c := by
  simp only [Station.bypassPlaced, bypassStep, h.bmr]

end SameForInc

/-! ### Four sockets -/

/-- A notice whose rule for one socket is the turn `T` gives every socket that turn. -/
theorem each_eq_incTurns {f : Socket → Station → Station} (h : ∀ x u, st.SameForInc x u → f x u = u.incTurn x (T x)) :
    st.each f = st.incTurns T := by
  have same := SameForInc.refl st
  simp only [incTurns, each]
  rw [h 0 st (same 0), h 1 _ ((same 1).incTurn (by decide) _),
    h 2 _ (((same 2).incTurn (by decide) _).incTurn (by decide) _),
    h 3 _ ((((same 3).incTurn (by decide) _).incTurn (by decide) _).incTurn (by decide) _)]

@[simp] theorem incSocket_incTurns (x : Socket) : (st.incTurns T).incSocket x = (T x).inc (st.incSocket x) :=
  each_get (f := fun x u => u.incTurn x (T x)) incSocket (fun x => (T x).inc) (fun _ => True) (fun _ _ _ => trivial)
    (fun _ _ _ => Quad.get_set_same _ _ _) (fun _ _ _ h => Quad.get_set_other _ _ h) trivial x

/-- All that the turns change. -/
theorem incTurns_changes (st : Station) (T : Socket → IncTurn) : st.incTurns T = { st with
    inc := { st.inc with sockets := (st.incTurns T).inc.sockets }
    stc := { st.stc with inbox := st.stc.inbox ++ ([0, 1, 2, 3] : List Socket).filterMap fun x => (T x).tells }
    lkc := { st.lkc with outbound := ([0, 1, 2, 3] : List Socket).foldl (fun q x => (T x).outbound q) st.lkc.outbound } } := by
  have told : (st.incTurns T).stc.inbox =
      st.stc.inbox ++ ([0, 1, 2, 3] : List Socket).filterMap fun x => (T x).tells := by
    simp [incTurns, each, incTurn, List.filterMap_eq_flatMap_toList]
  rw [← told]
  rfl

/-- What some sockets have to tell the STC. -/
theorem filterMap_some_if (p : Socket → Bool) (m : Socket → StcMsg) (l : List Socket) :
    (l.filterMap fun x => if p x then some (m x) else none) = (l.filter p).map m := by
  rw [← List.filterMap_eq_filter, List.map_filterMap]
  congr 1
  funext x
  cases hx : p x <;> simp [Option.guard, hx]

end Station

end Sys2Proof.Machine
end

section
/-! PROOFS. Probe cycles (R113 to R117): what detect and classify make of a cycle, and what its end leaves for the join that waits
for it. -/

namespace Sys2Proof.Machine

/-! ### The result of a cycle (R113 to R115) -/

theorem detectClass_invalid {p : Profile} {r : Nat} {d : DetectClass}
    (h : (p.rhi < r ∧ d = .none) ∨ (r ≤ p.rhi ∧ r < p.rlo ∧ d = .short)) : detectClass p r = d := by
  rcases h with ⟨habove, rfl⟩ | ⟨hr, hbelow, rfl⟩
  · exact if_pos habove
  · exact (if_neg (by omega)).trans (if_pos hbelow)

theorem detectClass_valid {p : Profile} {r : Nat} (hlo : p.rlo ≤ r) (hhi : r ≤ p.rhi) : detectClass p r = .valid :=
  (if_neg (by omega)).trans (if_neg (by omega))

/-- R114 check 5. -/
theorem lacksChannel_iff {p : Profile} {q : Quad Bool} :
    lacksChannel p q = true ↔ ∃ c : Channel, (p.channels.get c).mode ≠ .off ∧ q.get c = false :=
  (any_sockets _).trans (exists_congr fun c => by simp)

/-- R114, checks 4 to 6: the last reply of a burst that ended in OK, where the serials agree. -/
theorem identOutcome_judged {p : Profile} {r : BurstReport} {id : MeterId} {lk : Bool} {o : IdentOutcome}
    (hr : r.result = .ok) (hs : serialsDiffer (identReplies r.records) = false)
    (hl : (identReplies r.records).getLast? = some (id, lk)) :
    let lacks := id.cls ≠ p.cls ∨ ∃ c : Channel, (p.channels.get c).mode ≠ .off ∧ id.presence.get c = false
    ((lk = true ∧ o = .locked) ∨ (lk = false ∧ lacks ∧ o = .classMismatch) ∨ (lk = false ∧ ¬ lacks ∧ o = .ok)) →
    identOutcome p r = o := by
  intro lacks h
  have judged : identOutcome p r = if lk then .locked else if lacks then .classMismatch else .ok := by
    simp [identOutcome, hr, hs, hl, lacks, lacksChannel_iff]
  rw [judged]
  rcases h with ⟨rfl, rfl⟩ | ⟨rfl, hlacks, rfl⟩ | ⟨rfl, hlacks, rfl⟩
  · exact if_pos rfl
  · simp [hlacks]
  · simp [hlacks]

/-- R114, R115: the result of a cycle whose burst identified the meter. -/
theorem probeResult_of_identifies {p : Profile} {r : BurstReport} {o : IdentOutcome} {m : Option MeterId}
    (h : p.Identifies r o m) :
    Station.probeResult p r = { detect := .valid, ident := some o, meter := m, age := 0 } := by
  suffices identOutcome p r = o ∧ (identReplies r.records).getLast?.map Prod.fst = m by
    obtain ⟨ho, hm⟩ := this
    rw [Station.probeResult, ho, hm]
  rcases h with ⟨hr, rfl, rfl⟩ | ⟨hlocked, hok, rfl, rfl⟩ | ⟨a, cls, serial, pres, lk, hr, hrec, ha, rfl, hj⟩ |
    ⟨a, b, cls1, serial1, pres1, lk1, cls2, serial2, pres2, lk2, hr, hrec, ha, hb, hj⟩
  · exact ⟨if_pos hr, rfl⟩
  · exact ⟨(if_neg hlocked).trans (if_pos hok), rfl⟩
  · have replies : identReplies r.records = [(⟨cls, serial, pres⟩, lk)] := by simp [identReplies, hrec, ha]
    exact ⟨identOutcome_judged hr (by simp [replies, serialsDiffer]) (by simp [replies]) hj, by simp [replies]⟩
  · have replies : identReplies r.records = [(⟨cls1, serial1, pres1⟩, lk1), (⟨cls2, serial2, pres2⟩, lk2)] := by
      simp [identReplies, hrec, ha, hb]
    rcases hj with ⟨hdiffer, rfl, rfl⟩ | ⟨hsame, rfl, hj⟩
    · exact ⟨by simp [identOutcome, hr, replies, serialsDiffer, hdiffer], by simp [replies]⟩
    · exact ⟨identOutcome_judged hr (by simp [replies, serialsDiffer, hsame]) (by simp [replies]) hj, by simp [replies]⟩

namespace Station

variable {st : Station} {x : Socket} {rest : List IncMsg} {q : ProbeResult} {p : Profile}

/-- R115. -/
theorem usableProbe_iff {o : Option ProbeResult} :
    usableProbe o = true ↔ ∃ r, o = some r ∧ r.detect = .valid ∧ r.ident = some .ok ∧ r.age ≤ 1000 := by
  cases o with
  | none => simp [usableProbe]
  | some r =>
    simp only [usableProbe, Bool.and_eq_true, beq_iff_eq, decide_eq_true_iff, Option.some.injEq, exists_eq_left', and_assoc]
    rfl

/-! ### The start and the end of a cycle (R113, R115 to R117, R120) -/

theorem startCycle_eq (st : Station) (x : Socket) : st.startCycle x = st.modInc x IncSocket.probes := rfl

/-- No join waits for the cycle. -/
theorem endCycle_alone (hw : (st.incSocket x).join ≠ .waitCycle) (hf : (st.incSocket x).join ≠ .freshCycle) :
    st.endCycle x q = st.modInc x fun i => i.probed q := by
  unfold endCycle
  simp only [probed_eq]

/-- R120: the join waited for a cycle of its own. -/
theorem endCycle_freshCycle (hf : (st.incSocket x).join = .freshCycle) :
    st.endCycle x q = (st.modInc x fun i => i.probed q).stepTwo x := by
  simp only [endCycle, hf, probed_eq]

/-- R120: the join waited for the cycle that ran. -/
theorem endCycle_waitCycle (hw : (st.incSocket x).join = .waitCycle) :
    st.endCycle x q = (st.modInc x fun i => i.probed q).stepOneBypassed x := by
  simp only [endCycle, hw, probed_eq]

/-! ### The commands of a cycle -/

theorem detectEnd_invalid {n r : Nat} {d : DetectClass} (hc : (st.incSocket x).cycle = .detect n) (hp : st.profile x = some p)
    (h : (p.rhi < r ∧ d = .none) ∨ (r ≤ p.rhi ∧ r < p.rlo ∧ d = .short)) :
    st.detectEnd x r = st.endCycle x { detect := d, ident := none, meter := none, age := 0 } := by
  simp only [detectEnd, hc, hp, detectClass_invalid h]
  rcases h with ⟨-, rfl⟩ | ⟨-, -, rfl⟩ <;> rfl

theorem detectEnd_valid {n r : Nat} (hc : (st.incSocket x).cycle = .detect n) (hp : st.profile x = some p)
    (hlo : p.rlo ≤ r) (hhi : r ≤ p.rhi) : st.detectEnd x r = st.requestProbe x p.confirm := by
  simp only [detectEnd, hc, hp, detectClass_valid hlo hhi]

theorem probeBurstEnd_identifies {r : BurstReport} {o : IdentOutcome} {m : Option MeterId}
    (h : Heard IncMsg.overtakes st.inc.inbox (.probeEnd x r) rest) (hc : (st.incSocket x).cycle = .classify r.id)
    (hp : st.profile x = some p) (hi : p.Identifies r o m) :
    st.probeBurstEnd x = (st.incLeft rest).endCycle x { detect := .valid, ident := some o, meter := m, age := 0 } := by
  have hc' : ((st.incLeft rest).incSocket x).cycle = .classify r.id := hc
  have hp' : (st.incLeft rest).profile x = some p := hp
  rw [← probeResult_of_identifies hi, probeBurstEnd, incReport_heard (b := r) h (if_pos rfl) fun m hm => by
    cases m <;> simp [IncMsg.overtakes, IncMsg.isNotice, IncMsg.isRunOpened] at hm ⊢; exact Ne.symm hm]
  simp [hc', hp']

theorem idleProbeStart_idle (hr : st.cfl.stage = .running) (hi : st.inc.idle = true)
    (hp : st.bmr.phase = .closed ∨ st.bmr.phase = .ended) (he : st.enabled x = true)
    (hb : (st.incSocket x).state = .bypassed) : st.idleProbeStart x = st.modInc x IncSocket.probes :=
  if_pos ⟨by simp [started, hr], hi, by simpa [idlePhase] using hp, he, hb⟩

/-! ### Start-up and the run's end (R117) -/

/-- R117: the first cycle of an enabled socket. -/
def firstCycle (st : Station) (x : Socket) : IncTurn where
  inc := if st.enabled x = true ∧ (st.incSocket x).state = .bypassed then IncSocket.probes else id

/-- Idle probing has been set going. -/
def idling (st : Station) : Station := { st with inc := { st.inc with idle := true } }

theorem firstCycle_turn {u : Station} (h : st.SameForInc x u) :
    (if u.enabled x ∧ (u.incSocket x).state = .bypassed then u.startCycle x else u) = u.incTurn x (st.firstCycle x) := by
  rw [h.enabled, h.incSocket, firstCycle]
  split
  · exact modInc_eq_incTurn u x _
  · exact (incTurn_none u x).symm

theorem incStartUpEnd_heard (h : Heard IncMsg.overtakes st.inc.inbox .startUpEnd rest) :
    st.incStartUpEnd = (st.incLeft rest).idling.incTurns (st.incLeft rest).idling.firstCycle :=
  (incNotice_heard (b := ()) h rfl rfl fun x hx => by cases x <;> simp_all [IncMsg.isNotice]).trans
    (each_eq_incTurns fun _ _ => firstCycle_turn)

theorem firstCycles_eq (st : Station) : st.incTurns st.firstCycle = { st with inc := { st.inc with
    sockets := .tabulate fun x =>
      if st.enabled x = true ∧ (st.incSocket x).state = .bypassed then (st.incSocket x).probes else st.incSocket x } } := by
  have hsockets : (st.incTurns st.firstCycle).inc.sockets = .tabulate fun x =>
      if st.enabled x = true ∧ (st.incSocket x).state = .bypassed then (st.incSocket x).probes else st.incSocket x :=
    Quad.ext_get fun x => (incSocket_incTurns x).trans (by
      rw [Quad.get_tabulate, firstCycle]
      split <;> rfl)
  rw [← hsockets]
  refine (incTurns_changes st st.firstCycle).trans ?_
  simp [firstCycle]

theorem incRunEnded_heard {e : EndCause} (h : Heard IncMsg.overtakes st.inc.inbox (.ended e) rest) :
    st.incRunEnded = (st.incLeft rest).idling :=
  incNotice_heard (b := ()) h rfl rfl fun x hx => by cases x <;> simp_all [IncMsg.isNotice]

end Station

section Position

variable {c : Instr} {s : State} {a : Position} {x : Socket} {f : Socket → Station → Station} {g : Station → Station}

/-- A command that names a position acts on the socket the remap ties to it (R111). -/
theorem next_at_position (he : exec c s = s.run fun st => st.atPosition a f) (ha : s.Awake) (hx : s.st.socketAt a = some x)
    (hfg : f x s.st = g s.st) : exec c s = .next (s.upd g) :=
  next_of_run he ha ((Station.atPosition_some hx f).trans hfg)

end Position

/-- Settles O47: start-up's end, an idle cycle, detect by its class, classify by its burst's end, and the run's end. -/
theorem probeCyclesRun : Obligations.ProbeCyclesRun := by
  refine ⟨fun s rest ha h => next_of_run rfl ha ((Station.incStartUpEnd_heard h).trans (Station.firstCycles_eq _)),
    fun s x hr hi hp he hb => next_of_run rfl (by simp [State.Awake, hr]) (Station.idleProbeStart_idle hr hi hp he hb),
    fun s a x r n p ha hx hc hp => ⟨fun d hd hw hf => ?_, fun hlo hhi => ?_⟩,
    fun s x rest r p ha h hc hp hw hf o m hi => ?_,
    fun s e rest ha h => next_of_run rfl ha (Station.incRunEnded_heard h)⟩
  · refine next_at_position rfl ha hx ?_
    rw [Station.detectEnd_invalid hc hp hd, Station.endCycle_alone hw hf]
  · exact next_at_position rfl ha hx (Station.detectEnd_valid hc hp hlo hhi)
  · refine next_of_run rfl ha ((Station.probeBurstEnd_identifies h hc hp hi).trans ?_)
    exact Station.endCycle_alone hw hf

end Sys2Proof.Machine
end

section
/-! PROOFS. The join sequence (R119 to R124, R129): its start at the run-opened notice, its insertion and preset, and the steps it
takes when the cycle or the cool-down it waits for ends. -/

namespace Sys2Proof.Machine

/-! ### One socket of the INC -/

/-- R121 to R123: the join has ended with a fault. -/
def IncSocket.failed (i : IncSocket) (c : JoinFault) : IncSocket := { i with join := .none, joinFault := c }

/-- R119: a run has opened, and the join has no outcome. -/
def IncSocket.opened (i : IncSocket) : IncSocket := { i with join := .none, joinFault := .none, deferred := none }

/-- R120: the join waits for a cycle of its own. -/
def IncSocket.reprobes (i : IncSocket) : IncSocket := { i.probes with join := .freshCycle }

/-- A turn at a socket that `f` has changed. -/
def IncTurn.after (t : IncTurn) (f : IncSocket → IncSocket) : IncTurn := { t with inc := fun i => t.inc (f i) }

/-- R121 to R123: the turn that ends a join with a fault. -/
def IncTurn.fails (x : Socket) (c : JoinFault) : IncTurn where
  inc := fun i => i.failed c
  tells := some (.joinOutcome x (.fault c))

namespace Station

variable {st u : Station} {x : Socket} {rest : List IncMsg} {q : ProbeResult} {m : MeterId} {c : JoinFault}
  {late : Bool}

theorem incTurn_modInc (st : Station) (x : Socket) (f : IncSocket → IncSocket) (t : IncTurn) :
    (st.modInc x f).incTurn x t = st.incTurn x (t.after f) := by
  simp [incTurn, modInc, incSocket, IncTurn.after]

theorem failJoin_eq_incTurn (st : Station) (x : Socket) (c : JoinFault) : st.failJoin x c = st.incTurn x (.fails x c) := rfl

/-! ### Steps 1 and 2 (R120, R121) -/

/-- R121: the turn of step 2 at a probe result that passes to step 3, which opens the shunt for the meter it names (log 31). -/
def insertTurn (st : Station) (x : Socket) (q : ProbeResult) : IncTurn :=
  match q.meter with
  | some m => { inc := IncSocket.inserts st.insertionMs m }
  | none => .fails x .identFail

theorem usableProbe_false {o : Option ProbeResult}
    (h : ∀ r, o = some r → r.detect ≠ .valid ∨ r.ident ≠ some .ok ∨ 1000 < r.age) : usableProbe o = false :=
  Bool.eq_false_iff.mpr fun hu => by
    obtain ⟨r, hr, hd, hi, hage⟩ := usableProbe_iff.mp hu
    rcases h r hr with hd' | hi' | hage'
    · exact hd' hd
    · exact hi' hi
    · omega

theorem stepTwo_fault (hq : (st.incSocket x).probe = some q) (hc : stepTwoFault q = some c) :
    st.stepTwo x = st.incTurn x (.fails x c) := by
  simp only [stepTwo, hq, hc, failJoin_eq_incTurn]

theorem stepTwo_passes (hq : (st.incSocket x).probe = some q) (hd : q.detect = .valid) (hi : q.ident = some .ok) :
    st.stepTwo x = st.incTurn x (st.insertTurn x q) := by
  have passes : stepTwoFault q = none := by simp [stepTwoFault, hd, hi]
  simp only [stepTwo, hq, passes, insertTurn]
  cases q.meter with
  | none => rfl
  | some m => exact modInc_eq_incTurn st x _

/-- R120: the turn of step 1 at a BYPASSED socket. -/
def stepOneTurn (st : Station) (x : Socket) : IncTurn :=
  match (st.incSocket x).probe with
  | some q => if usableProbe (some q) then st.insertTurn x q else { inc := IncSocket.reprobes }
  | none => { inc := IncSocket.reprobes }

theorem stepOneTurn_usable (hq : (st.incSocket x).probe = some q) (hu : usableProbe (some q) = true) :
    st.stepOneTurn x = st.insertTurn x q := by
  simp [stepOneTurn, hq, hu]

theorem stepOneTurn_unusable (hu : usableProbe (st.incSocket x).probe = false) :
    st.stepOneTurn x = { inc := IncSocket.reprobes } := by
  unfold stepOneTurn
  cases hq : (st.incSocket x).probe with
  | none => rfl
  | some q => exact if_neg (Bool.eq_false_iff.mp (hq ▸ hu))

theorem stepOneBypassed_eq_incTurn (st : Station) (x : Socket) : st.stepOneBypassed x = st.incTurn x (st.stepOneTurn x) := by
  unfold stepOneBypassed
  cases hu : usableProbe (st.incSocket x).probe with
  | false =>
    rw [stepOneTurn_unusable hu, startCycle_eq, modInc_modInc, if_neg Bool.false_ne_true]
    exact modInc_eq_incTurn st x _
  | true =>
    obtain ⟨q, hq, hd, hi, -⟩ := usableProbe_iff.mp hu
    rw [stepOneTurn_usable hq (hq ▸ hu)]
    exact stepTwo_passes hq hd hi

/-! ### The run-opened notice (R119, R120) -/

/-- R119: the turn of a socket at the run-opened notice. -/
def joinTurn (st : Station) (late : Bool) (x : Socket) : IncTurn :=
  if st.enabled x = false then { inc := fun i => { i with joinFault := .disabled, deferred := none } }
  else if late then { inc := fun i => { i.opened with joinFault := .late } }
  else match (st.incSocket x).state with
  | .cooling => { inc := fun i => { i.opened with join := .waitCool } }
  | .probing => { inc := fun i => { i.opened with join := .waitCycle } }
  | .bypassed => (st.stepOneTurn x).after IncSocket.opened
  | .inserting => { inc := IncSocket.opened }
  | .inserted => { inc := IncSocket.opened }

/-- What step 1 does at a socket rests on its probe result and on the configuration. -/
theorem stepOneTurn_congr (hc : u.cfl = st.cfl) (hq : (u.incSocket x).probe = (st.incSocket x).probe) :
    u.stepOneTurn x = st.stepOneTurn x := by
  simp only [stepOneTurn, insertTurn, insertionMs, hq, hc]

theorem openJoin_disabled (he : st.enabled x = false) :
    openJoin late x st = st.modInc x fun i => { i with joinFault := .disabled, deferred := none } :=
  if_neg (Bool.eq_false_iff.mp he)

/-- R120: step 1 by the insertion state; INSERTING and INSERTED have no row (log 31). -/
theorem openJoin_begins (he : st.enabled x = true) : openJoin false x st = match (st.incSocket x).state with
    | .cooling => st.modInc x fun i => { i.opened with join := .waitCool }
    | .probing => st.modInc x fun i => { i.opened with join := .waitCycle }
    | .bypassed => (st.modInc x IncSocket.opened).stepOneBypassed x
    | .inserting => st.modInc x IncSocket.opened
    | .inserted => st.modInc x IncSocket.opened := by
  simp only [openJoin, he, if_true, modInc_modInc]
  cases (st.incSocket x).state <;> rfl

theorem openJoin_eq_incTurn (h : st.SameForInc x u) : openJoin late x u = u.incTurn x (st.joinTurn late x) := by
  unfold joinTurn
  cases he : st.enabled x with
  | false =>
    rw [openJoin_disabled (h.enabled x ▸ he), if_pos rfl]
    exact modInc_eq_incTurn u x _
  | true =>
    rw [if_neg (Bool.false_ne_true ∘ Eq.symm)]
    cases late with
    | true =>
      rw [openJoin_late (h.enabled x ▸ he), if_pos rfl]
      exact modInc_eq_incTurn u x _
    | false =>
      rw [openJoin_begins (h.enabled x ▸ he), h.incSocket, if_neg Bool.false_ne_true]
      cases (st.incSocket x).state with
      | cooling => exact modInc_eq_incTurn u x _
      | probing => exact modInc_eq_incTurn u x _
      | inserting => exact modInc_eq_incTurn u x _
      | inserted => exact modInc_eq_incTurn u x _
      | bypassed =>
        have same : (u.modInc x IncSocket.opened).stepOneTurn x = st.stepOneTurn x :=
          stepOneTurn_congr h.cfl (by rw [incSocket_modInc_same, h.incSocket, IncSocket.opened])
        exact (stepOneBypassed_eq_incTurn _ x).trans ((incTurn_modInc u x _ _).trans (by rw [same]))

/-- A usable probe result that names no meter: its join ends at once (log 31). -/
def unnamedMeter (o : Option ProbeResult) : Bool := o.any fun r => usableProbe (some r) && r.meter.isNone

theorem stepOneTurn_tells (st : Station) (x : Socket) : (st.stepOneTurn x).tells =
    if unnamedMeter (st.incSocket x).probe then some (.joinOutcome x (.fault .identFail)) else none := by
  unfold stepOneTurn
  cases (st.incSocket x).probe with
  | none => rfl
  | some q => cases hu : usableProbe (some q) <;> cases hm : q.meter <;> simp [unnamedMeter, insertTurn, IncTurn.fails, hu, hm]

theorem stepOneTurn_outbound (st : Station) (x : Socket) : (st.stepOneTurn x).outbound = id := by
  unfold stepOneTurn insertTurn
  repeat' split
  all_goals rfl

/-- The join of a socket ends at the run-opened notice by log 31. -/
def joinUnnamed (st : Station) (late : Bool) (x : Socket) : Bool :=
  st.enabled x && !late && decide ((st.incSocket x).state = .bypassed) && unnamedMeter (st.incSocket x).probe

theorem joinTurn_tells (st : Station) (late : Bool) (x : Socket) : (st.joinTurn late x).tells =
    if st.joinUnnamed late x then some (.joinOutcome x (.fault .identFail)) else none := by
  unfold joinTurn joinUnnamed
  cases st.enabled x with
  | false => rfl
  | true =>
    cases late with
    | true => rfl
    | false =>
      cases (st.incSocket x).state with
      | bypassed => simpa [IncTurn.after] using stepOneTurn_tells st x
      | _ => rfl

theorem joinTurn_outbound (st : Station) (late : Bool) (x : Socket) : (st.joinTurn late x).outbound = id := by
  unfold joinTurn
  cases st.enabled x with
  | false => rfl
  | true =>
    cases late with
    | true => rfl
    | false =>
      cases (st.incSocket x).state with
      | bypassed => exact stepOneTurn_outbound st x
      | _ => rfl

/-! ### The turns by case -/

theorem joinTurn_disabled (he : st.enabled x = false) :
    st.joinTurn late x = { inc := fun i => { i with joinFault := .disabled, deferred := none } } := if_pos he

theorem joinTurn_late (he : st.enabled x = true) :
    st.joinTurn true x = { inc := fun i => { i.opened with joinFault := .late } } := by
  simp [joinTurn, he]

theorem joinTurn_cooling (he : st.enabled x = true) (hs : (st.incSocket x).state = .cooling) :
    st.joinTurn false x = { inc := fun i => { i.opened with join := .waitCool } } := by simp [joinTurn, he, hs]

theorem joinTurn_probing (he : st.enabled x = true) (hs : (st.incSocket x).state = .probing) :
    st.joinTurn false x = { inc := fun i => { i.opened with join := .waitCycle } } := by simp [joinTurn, he, hs]

theorem joinTurn_bypassed (he : st.enabled x = true) (hs : (st.incSocket x).state = .bypassed) :
    st.joinTurn false x = (st.stepOneTurn x).after IncSocket.opened := by simp [joinTurn, he, hs]

theorem insertTurn_named (hm : q.meter = some m) : st.insertTurn x q = { inc := IncSocket.inserts st.insertionMs m } := by
  simp [insertTurn, hm]

theorem insertTurn_unnamed (hm : q.meter = none) : st.insertTurn x q = .fails x .identFail := by simp [insertTurn, hm]

theorem unnamedMeter_iff {o : Option ProbeResult} :
    unnamedMeter o = true ↔ ∃ r, o = some r ∧ usableProbe (some r) = true ∧ r.meter = none := by
  cases o <;> simp [unnamedMeter]

theorem joinUnnamed_iff : st.joinUnnamed late x = true ↔ st.enabled x = true ∧ late = false ∧
    (st.incSocket x).state = .bypassed ∧
      ∃ r, (st.incSocket x).probe = some r ∧ usableProbe (some r) = true ∧ r.meter = none := by
  simp [joinUnnamed, unnamedMeter_iff, and_assoc]

/-- A run has opened, and its notice is taken: idle probing ends. -/
def runTaken (st : Station) (rest : List IncMsg) : Station := { st with inc := { st.inc with inbox := rest, idle := false } }

/-- The joins of a run have begun, apart from those whose late end waited with the notice. -/
def joinsOpened (st : Station) (late : Quad Bool) (rest : List IncMsg) : Station :=
  (st.runTaken rest).incTurns fun x => st.joinTurn (late.get x) x

theorem incRunOpened_head {h : RunHeader} {late : Quad Bool} (hh : st.inc.inbox = .runOpened h late :: rest) :
    st.incRunOpened = st.joinsOpened late rest := by
  simp only [incRunOpened, incRunOpenedNotice, hh]
  exact each_eq_incTurns (st := st.runTaken rest) fun _ _ => openJoin_eq_incTurn

theorem joinsOpened_changes (st : Station) (late : Quad Bool) (rest : List IncMsg) : st.joinsOpened late rest = { st with
    inc := { st.inc with inbox := rest, idle := false, sockets := (st.joinsOpened late rest).inc.sockets }
    stc := { st.stc with
      inbox := st.stc.inbox ++ (([0, 1, 2, 3] : List Socket).filter fun x => st.joinUnnamed (late.get x) x).map fun x =>
        .joinOutcome x (.fault .identFail) } } := by
  refine (incTurns_changes (st.runTaken rest) _).trans ?_
  simp only [joinTurn_tells, joinTurn_outbound, filterMap_some_if]
  rfl

theorem incSocket_joinsOpened (st : Station) (late : Quad Bool) (rest : List IncMsg) (x : Socket) :
    (st.joinsOpened late rest).incSocket x = (st.joinTurn (late.get x) x).inc (st.incSocket x) :=
  incSocket_incTurns (st := st.runTaken rest) x

/-! ### Insertion and preset (R122, R123) -/

theorem senseAboveVopen_inserting (h : (st.incSocket x).state = .inserting) :
    st.senseAboveVopen x = st.incTurn x ((IncTurn.fails x .insertFail).after IncSocket.cooled) :=
  (if_pos h).trans (incTurn_modInc st x coolSocket (.fails x .insertFail))

theorem insertionWindowEnd_inserting (h : (st.incSocket x).state = .inserting) : st.insertionWindowEnd x = { st with
    inc := { st.inc with
      nextPreset := st.inc.nextPreset + 1
      sockets := st.inc.sockets.set x { st.incSocket x with
        state := .inserted, window := none, join := .preset st.inc.nextPreset, overburden := .zero, openCircuit := .zero } }
    cru := { st.cru with inbox := st.cru.inbox ++ [.presetRequest x st.inc.nextPreset] } } :=
  (if_pos h).trans (askPreset_modInc st x _)

theorem presetOutcome_heard {n : Nat} {ok : Bool} (h : Heard IncMsg.overtakes st.inc.inbox (.presetOutcome x n ok) rest) :
    st.presetOutcome x = if (st.incSocket x).state = .inserted ∧ (st.incSocket x).join = .preset n then
      (st.incLeft rest).takePresetOutcome x ok else st.incLeft rest :=
  incReport_heard (b := (n, ok)) h (if_pos rfl) fun m hm => by
    cases m <;> simp [IncMsg.overtakes, IncMsg.isNotice, IncMsg.isRunOpened] at hm ⊢; exact Ne.symm hm

theorem takePresetOutcome_joined (st : Station) (x : Socket) : st.takePresetOutcome x true = st.incTurn x
    { inc := fun i => { i with join := .none, joinFault := .none }
      tells := some (.joinOutcome x (.joined (st.incSocket x).joinClass)) } := rfl

/-- A close request at an INSERTED socket ends its join. -/
theorem shut_failed {i : IncSocket} (hs : i.state = .inserted) (c : JoinFault) :
    i.shut.failed c = { i.shut with joinFault := c } := by
  simp [IncSocket.shut, IncSocket.failed, hs]

theorem takePresetOutcome_failed (hs : (st.incSocket x).state = .inserted) : st.takePresetOutcome x false = { st with
    inc := { st.inc with sockets := st.inc.sockets.set x { (st.incSocket x).shut with joinFault := .presetFail } }
    stc := { st.stc with inbox := st.stc.inbox ++ [.joinOutcome x (.fault .presetFail)] } } := by
  rw [takePresetOutcome, if_neg Bool.false_ne_true, closeShunt_eq, failJoin_eq_incTurn, incTurn_modInc, ← shut_failed hs]
  rfl

/-! ### The cycle a join waits for (R120, R121) -/

/-- R121: a result that does not pass step 2 ends the join. -/
theorem endCycle_freshCycle_fails (hf : (st.incSocket x).join = .freshCycle) (hc : stepTwoFault q = some c) :
    st.endCycle x q = st.incTurn x ((IncTurn.fails x c).after fun i => i.probed q) := by
  rw [endCycle_freshCycle hf, stepTwo_fault (by rw [incSocket_modInc_same, IncSocket.probed]) hc, incTurn_modInc]

theorem endCycle_waitCycle_reprobes (hw : (st.incSocket x).join = .waitCycle) (hu : usableProbe (some q) = false) :
    st.endCycle x q = st.modInc x fun i => (i.probed q).reprobes := by
  rw [endCycle_waitCycle hw, stepOneBypassed_eq_incTurn,
    stepOneTurn_unusable (by rw [incSocket_modInc_same, IncSocket.probed]; exact hu), incTurn_modInc, modInc_eq_incTurn]
  rfl

theorem endCycle_inserts (hj : (st.incSocket x).join = .freshCycle ∨ (st.incSocket x).join = .waitCycle)
    (hu : usableProbe (some q) = true) (hm : q.meter = some m) :
    st.endCycle x q = st.modInc x fun i => (i.probed q).inserts st.insertionMs m := by
  have probe : ((st.modInc x fun i => i.probed q).incSocket x).probe = some q := by
    rw [incSocket_modInc_same, IncSocket.probed]
  have inserts : (st.modInc x fun i => i.probed q).incTurn x ((st.modInc x fun i => i.probed q).insertTurn x q) =
      st.modInc x fun i => (i.probed q).inserts st.insertionMs m := by
    rw [insertTurn_named hm, incTurn_modInc]
    exact (modInc_eq_incTurn st x _).symm
  rcases hj with hf | hw
  · obtain ⟨r, hr, hd, hi, -⟩ := usableProbe_iff.mp hu
    obtain rfl := Option.some.inj hr
    rw [endCycle_freshCycle hf, stepTwo_passes probe hd hi, inserts]
  · rw [endCycle_waitCycle hw, stepOneBypassed_eq_incTurn, stepOneTurn_usable probe hu, inserts]

/-! ### The cool-down a join waits for (R120, R129) -/

/-- R129: the cool-down has ended. -/
def cooledDown (i : IncSocket) : IncSocket := { i with state := .bypassed, coolDown := none }

theorem coolDownEnd_alone (hs : (st.incSocket x).state = .cooling) (hj : (st.incSocket x).join ≠ .waitCool) :
    st.coolDownEnd x = st.modInc x cooledDown := (if_pos hs).trans (if_neg hj)

theorem coolDownEnd_waitCool (hs : (st.incSocket x).state = .cooling) (hj : (st.incSocket x).join = .waitCool) :
    st.coolDownEnd x = st.incTurn x ((st.stepOneTurn x).after cooledDown) := by
  have same : (st.modInc x cooledDown).stepOneTurn x = st.stepOneTurn x :=
    stepOneTurn_congr rfl (by rw [incSocket_modInc_same, cooledDown])
  rw [← same, ← incTurn_modInc, ← stepOneBypassed_eq_incTurn]
  exact (if_pos hs).trans (if_pos hj)

end Station

/-- Settles O48: the notice by each socket's turn, the insertion, the preset's outcome, and the ends of the cycle and of the
cool-down by what the join waits for. -/
theorem joinSequenceRuns : Obligations.JoinSequenceRuns := by
  refine ⟨fun s h late rest ha hh => ?_, fun s a x ha hx hs => ⟨?_, ?_⟩,
    fun s x rest n ok ha h => ⟨fun hn => ?_, fun hs hj => ?_⟩,
    fun s a x r n p d ha hx hc hp hd => ?_, fun s x rest r p o m ha h hc hp hi => ?_,
    fun s x ha hs => ⟨fun hj => ?_, fun hj hu => ?_, fun r m hj hr hd hi hage hm => ?_⟩⟩
  · refine answers_of_run rfl ha (Station.incRunOpened_head hh) ⟨Station.joinsOpened_changes s.st late rest, fun x => ?_⟩
    rw [Station.incSocket_joinsOpened]
    refine ⟨fun he => ?_, fun he hl => ?_, fun he hl => ⟨fun hs => ?_, fun hs => ?_, fun r m hs hr hd hi hage hm => ?_,
      fun hu => ?_, fun hs hno => ?_⟩⟩
    · rw [Station.joinTurn_disabled he]
    · rw [hl, Station.joinTurn_late he]
      rfl
    · rw [hl, Station.joinTurn_cooling he hs]
      rfl
    · rw [hl, Station.joinTurn_probing he hs]
      rfl
    · rw [hl, Station.joinTurn_bypassed he hs,
        Station.stepOneTurn_usable hr (Station.usableProbe_iff.mpr ⟨r, rfl, hd, hi, hage⟩), Station.insertTurn_named hm]
      rfl
    · obtain ⟨-, -, hs, r, hr, hr', hm⟩ := Station.joinUnnamed_iff.mp hu
      rw [hl, Station.joinTurn_bypassed he hs, Station.stepOneTurn_usable hr hr', Station.insertTurn_unnamed hm]
      rfl
    · rw [hl, Station.joinTurn_bypassed he hs, Station.stepOneTurn_unusable (Station.usableProbe_false hno)]
      rfl
  · exact next_at_position rfl ha hx (Station.senseAboveVopen_inserting hs)
  · exact next_of_run rfl ha (Station.insertionWindowEnd_inserting hs)
  · exact next_of_run rfl ha ((Station.presetOutcome_heard h).trans (if_neg (not_and_or.mpr hn)))
  · have taken := (Station.presetOutcome_heard h).trans (if_pos ⟨hs, hj⟩)
    refine ⟨fun hok => ?_, fun hok => ?_⟩ <;> subst hok
    · exact next_of_run rfl ha (taken.trans (Station.takePresetOutcome_joined _ x))
    · exact next_of_run rfl ha (taken.trans (Station.takePresetOutcome_failed (st := s.st.incLeft rest) hs))
  · intro q
    have hv : q.detect ≠ .valid := by rcases hd with ⟨-, rfl⟩ | ⟨-, -, rfl⟩ <;> simp [q]
    have hu : Station.usableProbe (some q) = false := by simp [Station.usableProbe, hv]
    have ends := Station.detectEnd_invalid hc hp hd
    refine ⟨fun hf => next_at_position rfl ha hx (ends.trans ?_), fun hw => next_at_position rfl ha hx (ends.trans ?_)⟩
    · exact Station.endCycle_freshCycle_fails hf (if_pos hv)
    · exact Station.endCycle_waitCycle_reprobes hw hu
  · intro q faults
    have ends := Station.probeBurstEnd_identifies h hc hp hi
    have fails : ∀ c, (s.st.incSocket x).join = .freshCycle → stepTwoFault q = some c → faults c := fun c hf hq =>
      next_of_run rfl ha (ends.trans (Station.endCycle_freshCycle_fails hf hq))
    refine ⟨fun hf => ⟨fun ho => fails _ hf (by subst ho; rfl), fun ho => fails _ hf (by subst ho; rfl),
      fun ho => fails _ hf (by subst ho; rfl), fun ho => fails _ hf (by subst ho; rfl)⟩, fun hw ho => ?_,
      fun hj ho id hm => ?_⟩
    · exact next_of_run rfl ha (ends.trans (Station.endCycle_waitCycle_reprobes hw (by simp [Station.usableProbe, ho])))
    · exact next_of_run rfl ha (ends.trans (Station.endCycle_inserts hj (by subst ho; rfl) hm))
  · exact next_of_run rfl ha (Station.coolDownEnd_alone hs hj)
  · refine next_of_run rfl ha ((Station.coolDownEnd_waitCool hs hj).trans ?_)
    rw [Station.stepOneTurn_unusable hu]
    exact (Station.modInc_eq_incTurn s.st x _).symm
  · refine next_of_run rfl ha ((Station.coolDownEnd_waitCool hs hj).trans ?_)
    rw [Station.stepOneTurn_usable hr (Station.usableProbe_iff.mpr ⟨r, rfl, hd, hi, hage⟩), Station.insertTurn_named hm]
    exact (Station.modInc_eq_incTurn s.st x _).symm

end Sys2Proof.Machine
end

section
/-! PROOFS. Supervision and shedding (R125 to R128, R130, R145): the fault a timer at its limit gives and the BYPASS that follows
it, how the timers rise and fall, and the turn of a socket that a shed takes. -/

namespace Sys2Proof.Machine

namespace Station

variable {st u : Station} {x : Socket} {w : SupTimer} {c : OutCause} {rest : List IncMsg} {level : Nat}

/-! ### A timer at its limit (R126, R127) -/

/-- R126: the fault is taken, its BYPASS not yet placed. -/
def faulted (st : Station) (x : Socket) (w : SupTimer) : Station := { st with
  inc := { st.inc with sockets := st.inc.sockets.set x (countFault w (st.incSocket x).cooled) }
  stc := { st.stc with inbox := st.stc.inbox ++ [.bypass x (supCause w)] }
  lkc := { st.lkc with outbound := st.verdictWithdrawn x } }

theorem supervisionLimit_atLimit (hs : (st.incSocket x).state = .inserted)
    (hl : (supTimer (st.incSocket x) w).count = st.supLimit w) :
    supervisionLimit x w st = (st.faulted x w).placeSupervisionBypass x (supCause w) := by
  refine (if_pos ⟨hs, hl⟩).trans ?_
  rw [modInc_modInc, withdrawVerdict_eq]
  rfl

/-- What R127 writes of the socket stands beside what R126 has written. -/
theorem faulted_modInc (st : Station) (x : Socket) (w : SupTimer) (f : IncSocket → IncSocket) :
    (st.faulted x w).modInc x f = { st.faulted x w with inc := { st.inc with
      sockets := st.inc.sockets.set x (f (countFault w (st.incSocket x).cooled)) } } := by
  simp [modInc, faulted]

theorem placeSupervisionBypass_places (h : (st.ctx x).run.stepping = true ∨ (st.ctx x).run = .joined) :
    st.placeSupervisionBypass x c =
      { st with lkc := { st.lkc with outbound := st.bypassPlaced st.lkc.outbound x c } } :=
  if_pos h

theorem placeSupervisionBypass_defers (hr : (st.ctx x).run = .joining) (hj : st.stc.joinPlaced = true) :
    st.placeSupervisionBypass x c = st.modInc x fun i => { i with deferred := some c } := by
  simp [placeSupervisionBypass, hr, hj, RunState.stepping]

theorem placeSupervisionBypass_failsJoin (hr : (st.ctx x).run = .joining) (hj : st.stc.joinPlaced = false) :
    st.placeSupervisionBypass x c = st.modInc x fun i =>
      { i with joinFault := if i.joinFault = .none then .insertFail else i.joinFault } := by
  have late : lateFault .insertFail = fun i : IncSocket =>
      { i with joinFault := if i.joinFault = .none then .insertFail else i.joinFault } := by
    funext i
    unfold lateFault
    split <;> simp_all
  simp [placeSupervisionBypass, hr, hj, RunState.stepping, late]

theorem placeSupervisionBypass_none (hs : (st.ctx x).run.stepping = false) (hj : (st.ctx x).run ≠ .joined)
    (hn : (st.ctx x).run ≠ .joining) : st.placeSupervisionBypass x c = st := by
  simp [placeSupervisionBypass, hs, hj, hn]

/-! ### Timers (R125) -/

theorem decayDue_iff {n : Nat} {v : Supervision} :
    decayDue n v = true ↔ v.above = false ∧ v.decay = 15 ∧ v.count ≠ n := by
  simp [decayDue, Config.decayMs, and_assoc]

theorem supervisionDecay_due (hs : (st.incSocket x).state = .inserted)
    (hd : decayDue (st.supLimit w) (supTimer (st.incSocket x) w) = true) :
    supervisionDecay x w st = st.modInc x fun i => modSup i w fun v => { v with count := v.count - 1, decay := 0 } :=
  if_pos ⟨hs, hd⟩

theorem supervisionDecay_early (hd : ¬ decayDue (st.supLimit w) (supTimer (st.incSocket x) w) = true) :
    supervisionDecay x w st = st := if_neg fun h => hd h.2

/-! ### Shedding (R130) -/

/-- R130: the turn of a socket at a shed. -/
def shedTurn (st : Station) (level : Nat) (x : Socket) : IncTurn where
  inc := if st.shedTakes level x then IncSocket.shut else id
  tells := if st.shedTakes level x then some (.bypass x .shed) else none
  outbound := if st.shedTakes level x then fun q => st.bypassPlaced (verdictsWithdrawn (· == x) q) x .shed else id

theorem shedSocket_eq_incTurn (h : st.SameForInc x u) : shedSocket level x u = u.incTurn x (st.shedTurn level x) := by
  have takes : u.shedTakes level x = st.shedTakes level x := by
    simp only [shedTakes, h.enabled, h.shedRank, h.incSocket, ctx, h.ctx]
  unfold shedSocket shedTurn
  rw [takes]
  cases st.shedTakes level x with
  | false => exact (incTurn_none u x).symm
  | true =>
    simp only [closeShunt_eq, withdrawVerdict_eq, placeBypass_eq, verdictWithdrawn_eq, if_true, ← h.bypassPlaced]
    rfl

/-- What a shed takes, with the notice taken. -/
def sheds (st : Station) (level : Nat) (rest : List IncMsg) : Station := (st.incLeft rest).incTurns (st.shedTurn level)

theorem incShed_heard (h : Heard IncMsg.overtakes st.inc.inbox (.shed level) rest) : st.incShed = st.sheds level rest :=
  (incNotice_heard (b := level) h rfl rfl fun x hx => by cases x <;> simp_all [IncMsg.isNotice]).trans
    (each_eq_incTurns (st := st.incLeft rest) fun _ _ => shedSocket_eq_incTurn)

theorem sheds_changes (st : Station) (level : Nat) (rest : List IncMsg) :
    let taken := ([0, 1, 2, 3] : List Socket).filter (st.shedTakes level)
    st.sheds level rest = { st with
      inc := { st.inc with inbox := rest, sockets := (st.sheds level rest).inc.sockets }
      stc := { st.stc with inbox := st.stc.inbox ++ taken.map fun x => .bypass x .shed }
      lkc := { st.lkc with
        outbound := taken.foldl (fun q x => st.bypassPlaced (verdictsWithdrawn (· == x) q) x .shed) st.lkc.outbound } } := by
  intro taken
  have queue : ([0, 1, 2, 3] : List Socket).foldl (fun q x => (st.shedTurn level x).outbound q) st.lkc.outbound =
      taken.foldl (fun q x => st.bypassPlaced (verdictsWithdrawn (· == x) q) x .shed) st.lkc.outbound := by
    rw [List.foldl_filter]
    congr 1
    funext q x
    cases hx : st.shedTakes level x <;> simp [shedTurn, hx]
  have told := filterMap_some_if (st.shedTakes level) (fun x => .bypass x .shed) [0, 1, 2, 3]
  rw [← queue, ← told]
  exact incTurns_changes (st.incLeft rest) (st.shedTurn level)

theorem incSocket_sheds (st : Station) (level : Nat) (rest : List IncMsg) (x : Socket) : (st.sheds level rest).incSocket x =
    if st.shedTakes level x then (st.incSocket x).shut else st.incSocket x := by
  refine (incSocket_incTurns (st := st.incLeft rest) x).trans ?_
  unfold shedTurn
  cases st.shedTakes level x <;> rfl

/-! ### The report of a failed verification (R145) -/

theorem verifyFailReport_heard (h : Heard IncMsg.overtakes st.inc.inbox (.verifyFail x) rest) :
    st.verifyFailReport x = (st.incLeft rest).placeBypass x .verifyFail :=
  incReport_heard (b := ()) h (if_pos rfl) fun m hm => by
    cases m <;> simp [IncMsg.overtakes, IncMsg.isNotice, IncMsg.isRunOpened] at hm ⊢; exact Ne.symm hm

end Station

/-- Settles O49: a timer at its limit by the run state, the rise of a sense, the decay of each timer, the shed by each socket's
turn, and the failed verification. -/
theorem supervisionAndShedBypass : Obligations.SupervisionAndShedBypass := by
  refine ⟨fun s x w ha hs hl => ?_, fun s a x ha hx hs => ?_, fun s x ha hs => ?_, fun s rest l ha h => ?_,
    fun s x rest ha h => next_of_run rfl ha (Station.verifyFailReport_heard h)⟩
  · have limit := Station.supervisionLimit_atLimit hs hl
    intro cause up i t q r
    have hcause : cause = Station.supCause w := by cases w <;> rfl
    have hi : i = Station.countFault w (s.st.incSocket x).cooled := by cases w <;> rfl
    have gives : ∀ j out, (s.st.faulted x w).placeSupervisionBypass x (Station.supCause w) = { s.st.faulted x w with
        inc := { s.st.inc with sockets := s.st.inc.sockets.set x j }, lkc := { s.st.lkc with outbound := out } } → t j out :=
      fun j out hp => next_of_run rfl ha (limit.trans (hp.trans (by rw [hcause]; rfl)))
    rw [hcause, hi]
    refine ⟨fun hr => gives _ _ ?_, fun hr hj => gives _ _ ?_, fun hr hj => gives _ _ ?_, fun hstep hj hn => gives _ _ ?_⟩
    · exact Station.placeSupervisionBypass_places hr
    · exact (Station.placeSupervisionBypass_defers (st := s.st.faulted x w) hr hj).trans (Station.faulted_modInc _ _ _ _)
    · exact (Station.placeSupervisionBypass_failsJoin (st := s.st.faulted x w) hr hj).trans (Station.faulted_modInc _ _ _ _)
    · exact Station.placeSupervisionBypass_none hstep hj hn
  · exact ⟨next_at_position rfl ha hx (if_pos hs), next_at_position rfl ha hx (if_pos hs)⟩
  · refine ⟨fun hd => ?_, fun hd => ?_, fun hd => ?_, fun hd => ?_⟩
    · exact next_of_run rfl ha (Station.supervisionDecay_due hs (Station.decayDue_iff.mpr hd))
    · exact next_of_run (g := id) rfl ha (Station.supervisionDecay_early (mt Station.decayDue_iff.mp hd))
    · exact next_of_run rfl ha (Station.supervisionDecay_due hs (Station.decayDue_iff.mpr hd))
    · exact next_of_run (g := id) rfl ha (Station.supervisionDecay_early (mt Station.decayDue_iff.mp hd))
  · exact answers_of_run rfl ha (Station.incShed_heard h)
      ⟨Station.sheds_changes s.st l rest, Station.incSocket_sheds s.st l rest⟩

end Sys2Proof.Machine
end

section
/-! PROOFS. The bursts of a port (R111, R149, R150, R152, R157, R158): how one is taken, waits and is withdrawn, and when its
orders go out. -/

namespace Sys2Proof.Machine

/-! ### The places of a port (R152, R157, R158) -/

theorem readyStage_eq (t : Timer) : readyStage t = if t = none then .sending else .waitRest := by
  cases t <;> rfl

namespace Station

theorem acceptBurst_idle {b : Burst} {p : Port} (h : p.running = none) :
    acceptBurst b p = { p with running := some (b.begun (if p.rest = none then .sending else .waitRest)) } := by
  simp only [acceptBurst, h, startBurst, readyStage_eq]
  rfl

theorem acceptBurst_busy {b : Burst} {p : Port} (h : p.running ≠ none) : acceptBurst b p = { p with waiting := some b } := by
  obtain ⟨r, hr⟩ := Option.ne_none_iff_exists'.mp h
  simp only [acceptBurst, hr]

theorem withdrawn_named {n : Nat} {b : Burst} {p : Port} (hw : p.waiting = some b) (hn : b.id = n) :
    withdrawn n p = { p with waiting := none } := by
  simp [withdrawn, hw, hn]

theorem withdrawn_other {n : Nat} {p : Port} (h : ∀ b, p.waiting = some b → b.id ≠ n) : withdrawn n p = p := by
  unfold withdrawn
  cases hw : p.waiting with
  | none => rfl
  | some b => exact if_neg (h b hw)

variable {st : Station} {x : Socket} {rest : List MpcMsg} {b : Burst} {r : Running} {p : Position}

/-- Changes of a port that agree on what it holds. -/
theorem modPort_congr {f g : Port → Port} (h : f (st.port x) = g (st.port x)) : st.modPort x f = st.modPort x g :=
  congrArg (fun q => { st with mpc := { st.mpc with ports := st.mpc.ports.set x q } }) h

/-- A change that leaves the port as it stands. -/
theorem modPort_self {f : Port → Port} (h : f (st.port x) = st.port x) : st.modPort x f = st := by
  simp only [port] at h
  simp [modPort, h]

/-! ### Requests (R157) -/

/-- A request that is heard is taken, unless its port has no place for it (log 21). -/
theorem burstRequest_heard (h : Heard MpcMsg.overtakes st.mpc.inbox (.request x b) rest) : burstRequest x b.kind st =
    if (st.port x).running.isSome ∧ (st.port x).waiting.isSome then st
    else (st.mpcLeft rest).modPort x (acceptBurst b) := by
  have picked : pickRequest x b.kind (.request x b) = some b := if_pos ⟨rfl, rfl⟩
  have taken := takeFirst_heard (holds := fun _ => false) h picked fun m hm => by
    cases m with
    | request y c => simp [MpcMsg.overtakes] at hm; simp [pickRequest]; grind
    | withdraw y n => exact ⟨rfl, rfl⟩
  simp only [burstRequest, taken]
  rfl

theorem burstRequest_runs (h : Heard MpcMsg.overtakes st.mpc.inbox (.request x b) rest) (hr : (st.port x).running = none) :
    burstRequest x b.kind st = (st.mpcLeft rest).modPort x fun p =>
      { p with running := some (b.begun (if p.rest = none then .sending else .waitRest)) } :=
  (burstRequest_heard h).trans ((if_neg (by simp [hr])).trans (modPort_congr (acceptBurst_idle hr)))

theorem burstRequest_waits (h : Heard MpcMsg.overtakes st.mpc.inbox (.request x b) rest) (hr : (st.port x).running ≠ none)
    (hw : (st.port x).waiting = none) :
    burstRequest x b.kind st = (st.mpcLeft rest).modPort x fun p => { p with waiting := some b } :=
  (burstRequest_heard h).trans ((if_neg (by simp [hw])).trans (modPort_congr (acceptBurst_busy hr)))

theorem burstRequest_stays (h : Heard MpcMsg.overtakes st.mpc.inbox (.request x b) rest) (hr : (st.port x).running ≠ none)
    (hw : (st.port x).waiting ≠ none) : burstRequest x b.kind st = st :=
  (burstRequest_heard h).trans (if_pos ⟨Option.isSome_iff_ne_none.mpr hr, Option.isSome_iff_ne_none.mpr hw⟩)

/-! ### Orders on the line (R149, R150, R152) -/

theorem orderSent_sending (hr : (st.port x).running = some r) (hs : r.stage = .sending) :
    orderSent x st = st.modPort x fun p => { p with running := some { r with stage := .awaiting [] 250 } } := by
  simp only [orderSent, hr]
  exact if_pos hs

theorem lineRestEnd_resting (h : (st.port x).rest ≠ none) : lineRestEnd x st = st.modPort x fun p =>
    { p with rest := none, running := p.running.map fun r =>
        if r.stage = .waitRest then { r with stage := .sending } else r } :=
  if_pos (Option.isSome_iff_ne_none.mpr h)

theorem atPosition_strayByte (st : Station) (p : Position) (b : RxByte) :
    st.atPosition p (fun x => strayByte x b) = st := by
  unfold atPosition
  split <;> rfl

theorem meterTx_sending (hx : st.socketAt p = some x) (hr : (st.port x).running = some r) (hs : r.stage = .sending) :
    st.meterTx p = some r.order.encode := by
  simp [meterTx_socket hx, transmitting, hr, hs]

theorem meterTx_stop (h : ∀ x r, st.socketAt p = some x → (st.port x).running = some r → r.stage ≠ .sending) :
    st.meterTx p = none := by
  cases hx : st.socketAt p with
  | none => exact meterTx_none hx
  | some x =>
    rw [meterTx_socket hx, transmitting]
    cases hr : (st.port x).running with
    | none => rfl
    | some r => exact if_neg (h x r hx hr)

end Station

/-- Settles O52: a request by the places of its port, a withdrawal by what waits there, and the orders of the running burst. -/
theorem portsTakeBursts : Obligations.PortsTakeBursts := by
  refine ⟨fun s x rest b ha h => ⟨fun hr => ?_, fun hr hw => ?_, fun hr hw => ?_⟩,
    fun s x rest n ha h => ⟨fun b hw hn => ?_, fun hno => ?_⟩,
    fun s x r ha hr hs => next_of_run rfl ha (Station.orderSent_sending hr hs),
    fun s x ha h => next_of_run rfl ha (Station.lineRestEnd_resting h), fun s p b => ?_,
    fun st p => ⟨fun x r => Station.meterTx_sending, Station.meterTx_stop⟩⟩
  · exact next_of_run rfl ha (Station.burstRequest_runs h hr)
  · exact next_of_run rfl ha (Station.burstRequest_waits h hr hw)
  · exact next_of_run (g := id) rfl ha (Station.burstRequest_stays h hr hw)
  · exact next_of_run rfl ha ((Station.burstWithdrawal_heard h).trans (Station.modPort_congr (Station.withdrawn_named hw hn)))
  · exact next_of_run rfl ha ((Station.burstWithdrawal_heard h).trans (Station.modPort_self (Station.withdrawn_other hno)))
  · have he : exec (.strayByte p b) s = s.run fun st => st.atPosition p fun x => Station.strayByte x b := rfl
    simp only [he, State.run, Station.atPosition_strayByte, ite_self]

end Sys2Proof.Machine
end

section
/-! PROOFS. What the Correction Unit does with a request (R137, R139, R140, R144): it answers at once, or asks for a burst. -/

namespace Sys2Proof.Machine

/-! ### The checks of a preset request (R137) -/

theorem inBounds_iff {k : ChannelRec} {v : Int} : inBounds k v = true ↔ k.min ≤ v ∧ v ≤ k.max := by
  simp [inBounds]

theorem inBounds_false_iff {k : ChannelRec} {v : Int} : inBounds k v = false ↔ v < k.min ∨ k.max < v := by
  rw [← Bool.not_eq_true, inBounds_iff]
  omega

theorem presetLacks_iff {q : Quad ChannelRec} {presence : Quad Bool} :
    presetLacks q presence = true ↔ ∃ c : Channel, (q.get c).mode ≠ .off ∧ presence.get c = false := by
  simp [presetLacks, Fin.exists_fin_succ]

theorem presetOutside_iff {q : Quad ChannelRec} : presetOutside q = true ↔
    ∃ c : Channel, (q.get c).mode = .fixed ∧ ((q.get c).preset < (q.get c).min ∨ (q.get c).max < (q.get c).preset) := by
  simp [presetOutside, Quad.toList, Quad.get, Fin.exists_fin_succ, inBounds_false_iff]

/-- R137: one of the checks refuses some channel. -/
theorem presetRefused_iff {q : Quad ChannelRec} {presence : Quad Bool} :
    (presetLacks q presence = true ∨ presetOutside q = true) ↔
      ∃ c : Channel, ((q.get c).mode ≠ .off ∧ presence.get c = false) ∨
        ((q.get c).mode = .fixed ∧ ((q.get c).preset < (q.get c).min ∨ (q.get c).max < (q.get c).preset)) := by
  rw [presetLacks_iff, presetOutside_iff, exists_or]

namespace Station

variable {st : Station} {x : Socket} {rest : List CruMsg} {q : Quad ChannelRec} {n : Nat} {c : Channel} {mean : Int}

/-! ### Requests, heard -/

theorem presetRequest_heard (h : Heard CruMsg.overtakes st.cru.inbox (.presetRequest x n) rest)
    (ht : (st.cruSocket x).table = some q) : presetRequest x st = (st.cruLeft rest).buildPreset x n q := by
  have ht' : ((st.cruLeft rest).cruSocket x).table = some q := ht
  rw [presetRequest, cruReport_heard (b := n) h (if_pos rfl) fun m hm => by
    cases m <;> simp [CruMsg.overtakes, CruMsg.isRunOpened] at hm ⊢; exact Ne.symm hm]
  simp only [ht']

theorem correctionRequest_heard (h : Heard CruMsg.overtakes st.cru.inbox (.correction x c mean) rest)
    (ht : (st.cruSocket x).table = some q) :
    correctionRequest x st = (st.cruLeft rest).correct x c mean (q.get c) := by
  have hc : (st.cruLeft rest).channel x c = some (q.get c) :=
    congrArg (Option.map fun t : Quad ChannelRec => t.get c) ht
  rw [correctionRequest, cruReport_heard (b := (c, mean)) h (if_pos rfl) fun m hm => by
    cases m <;> simp [CruMsg.overtakes, CruMsg.isRunOpened] at hm ⊢; exact Ne.symm hm]
  simp only [hc]

/-- R144: a verification of the marked channels `cs`. -/
def verifyMarked (st : Station) (x : Socket) : List Channel → Station
  | [] => st.tellSlu (.verification x true st.bmr.phase)
  | c :: cs => (st.setRequest x (.verify st.mpc.nextBurst)).requestBurst x .verify (.readCh c) (cs.map .readCh)

theorem verificationRequest_heard (h : Heard CruMsg.overtakes st.cru.inbox (.verifyRequest x) rest)
    (ht : (st.cruSocket x).table = some q) :
    verificationRequest x st = (st.cruLeft rest).verifyMarked x ([0, 1, 2, 3].filter fun c => (q.get c).mark) := by
  have ht' : markedChannels ((st.cruLeft rest).cruSocket x).table = [0, 1, 2, 3].filter fun c => (q.get c).mark :=
    congrArg markedChannels ht
  rw [verificationRequest, cruReport_heard (b := ()) h (if_pos rfl) fun m hm => by
    cases m <;> simp [CruMsg.overtakes, CruMsg.isRunOpened] at hm ⊢; exact Ne.symm hm, ht']
  rfl

/-! ### The answers -/

/-- R136, R155: the request in progress of socket `x` is `r`, and a burst is asked of its port. -/
theorem setRequest_requestBurst (st : Station) (x : Socket) (r : CruRequest) (k : BurstKind) (o : Order) (os : List Order) :
    (st.setRequest x r).requestBurst x k o os = { st with
      cru := { st.cru with sockets := st.cru.sockets.set x { st.cruSocket x with request := r } }
      mpc := st.burstAsked x k o os } := rfl

theorem buildPreset_refused (h : presetLacks q (st.incSocket x).joinPresence = true ∨ presetOutside q = true) :
    st.buildPreset x n q = st.tellInc (.presetOutcome x n false) := if_pos h

theorem buildPreset_empty (h : ¬ (presetLacks q (st.incSocket x).joinPresence = true ∨ presetOutside q = true))
    (ho : presetBurst st.verifyWrites q = []) : st.buildPreset x n q = st.tellInc (.presetOutcome x n true) := by
  rw [buildPreset, if_neg h, ho]

theorem buildPreset_asks {o : Order} {os : List Order}
    (h : ¬ (presetLacks q (st.incSocket x).joinPresence = true ∨ presetOutside q = true))
    (ho : presetBurst st.verifyWrites q = o :: os) :
    st.buildPreset x n q = (st.setRequest x (.preset st.mpc.nextBurst n)).requestBurst x .preset o os := by
  rw [buildPreset, if_neg h, ho]

variable {k : ChannelRec} {cur : Int}

theorem correct_noCurrent (h : k.current = none) : st.correct x c mean k = st.tellStc (.adjusted x .svcFail) := by
  rw [correct, h]

theorem correct_outside (h : k.current = some cur)
    (hb : cur + correctionCounts mean k.sensitivity < k.min ∨ k.max < cur + correctionCounts mean k.sensitivity) :
    st.correct x c mean k = st.tellStc (.adjusted x .adjLimit) := by
  simp [correct, h, inBounds_false_iff.mpr hb]

theorem correct_asks (h : k.current = some cur) (hmin : k.min ≤ cur + correctionCounts mean k.sensitivity)
    (hmax : cur + correctionCounts mean k.sensitivity ≤ k.max) :
    st.correct x c mean k =
      (st.setRequest x (.adjust st.mpc.nextBurst c (cur + correctionCounts mean k.sensitivity))).requestBurst x .adjust
        (.writeCh c (cur + correctionCounts mean k.sensitivity)) (if st.verifyWrites then [.readCh c] else []) := by
  simp [correct, h, inBounds_iff.mpr ⟨hmin, hmax⟩]

end Station

/-- Settles O50: each request by its checks in order, then its burst. -/
theorem requestsBuildTheirBursts : Obligations.RequestsBuildTheirBursts := by
  refine ⟨fun s x rest n q ha h ht => ⟨fun hbad => ?_, fun hbad ho => ?_, fun o os hbad ho => ?_⟩,
    fun s x rest c mean q ha h ht => ⟨fun hn => ?_, fun cur hc => ⟨fun hb => ?_, fun hmin hmax => ?_⟩⟩,
    fun s x rest q ha h ht => ⟨fun hm => ?_, fun c cs hm => ?_⟩⟩
  · exact next_of_run rfl ha ((Station.presetRequest_heard h ht).trans
      (Station.buildPreset_refused (presetRefused_iff.mpr hbad)))
  · exact next_of_run rfl ha ((Station.presetRequest_heard h ht).trans
      (Station.buildPreset_empty (mt presetRefused_iff.mp hbad) ho))
  · exact next_of_run rfl ha ((Station.presetRequest_heard h ht).trans
      (Station.buildPreset_asks (mt presetRefused_iff.mp hbad) ho))
  · exact next_of_run rfl ha ((Station.correctionRequest_heard h ht).trans (Station.correct_noCurrent hn))
  · exact next_of_run rfl ha ((Station.correctionRequest_heard h ht).trans (Station.correct_outside hc hb))
  · exact next_of_run rfl ha ((Station.correctionRequest_heard h ht).trans (Station.correct_asks hc hmin hmax))
  · have unmarked : ([0, 1, 2, 3].filter fun c : Channel => (q.get c).mark) = [] := by simp [hm]
    exact next_of_run rfl ha ((Station.verificationRequest_heard h ht).trans (congrArg _ unmarked))
  · exact next_of_run rfl ha ((Station.verificationRequest_heard h ht).trans (congrArg _ hm))

end Sys2Proof.Machine
end

section
/-! PROOFS. The end of the Correction Unit's own burst (R138, R141 to R145): what the records make of the table, and what is
answered. -/

namespace Sys2Proof.Machine

/-! ### A PRESET burst's records (R138, R143) -/

/-- One channel of a table changed, as channel `c` sees it. -/
theorem modChannel_get (t : Quad ChannelRec) (d c : Channel) (f : ChannelRec → ChannelRec) :
    (modChannel t d f).get c = if d = c then f (t.get c) else t.get c := by
  rw [modChannel, Quad.get_set]
  by_cases hd : d = c
  · rw [hd]
  · rw [if_neg hd, if_neg (Ne.symm hd)]

theorem presetRecord_get (t : Quad ChannelRec) (a : ExchangeRecord) (c : Channel) :
    (presetRecord t a).get c = (t.get c).presetBy c a := by
  unfold presetRecord
  split
  case h_1 d v ho hr => simp only [modChannel_get, ChannelRec.presetBy, ho, hr, ite_not, if_true]
  case h_2 d v ho hr => simp only [modChannel_get, ChannelRec.presetBy, ho, ite_not, if_neg hr]
  case h_3 d v ho hr => simp only [modChannel_get, ChannelRec.presetBy, ho, hr]
  case h_4 no_write _ no_read =>
    unfold ChannelRec.presetBy
    split
    case h_1 d v ho => exact absurd ho (no_write d v)
    case h_2 d ho =>
      split
      case h_1 v hr => exact absurd hr (no_read d v ho)
      case h_2 => rfl
    case h_3 => rfl

theorem foldl_presetRecord_get (c : Channel) : ∀ (l : List ExchangeRecord) (t : Quad ChannelRec),
    (l.foldl presetRecord t).get c = l.foldl (ChannelRec.presetBy c) (t.get c)
  | [], _ => rfl
  | a :: l, t => (foldl_presetRecord_get c l _).trans (congrArg (l.foldl _) (presetRecord_get t a c))

/-- R138: a read right after a write of its channel returned the value written. -/
def ReadsBack (a b : ExchangeRecord) : Prop :=
  ∀ c v w, a.order = .writeCh c v → b.order = .readCh c → b.reply = some (.readCh w) → v = w

theorem readbacksAgree_cons_cons (a b : ExchangeRecord) (l : List ExchangeRecord) :
    readbacksAgree (a :: b :: l) = true ↔ ReadsBack a b ∧ readbacksAgree (b :: l) = true := by
  rw [readbacksAgree, Bool.and_eq_true]
  refine and_congr_left' ?_
  unfold ReadsBack
  split
  case h_1 c v d w ha hb hr =>
    simp only [ha, hb, hr, Order.writeCh.injEq, Order.readCh.injEq, Option.some.injEq, Reply.readCh.injEq,
      Bool.or_eq_true, bne_iff_ne, beq_iff_eq]
    constructor
    · rintro hvw c' v' w' ⟨rfl, rfl⟩ rfl rfl
      exact hvw.resolve_left (not_not_intro rfl)
    · exact fun h => or_iff_not_imp_left.mpr fun hd => h c v w ⟨rfl, rfl⟩ (not_not.mp hd).symm rfl
  case h_2 hno => exact iff_of_true rfl fun c v w ha hb hr => absurd hr (hno c v c w ha hb)

theorem readbacksAgree_iff_isChain : ∀ l : List ExchangeRecord, readbacksAgree l = true ↔ l.IsChain ReadsBack
  | [] => by simp [readbacksAgree]
  | [a] => by simp [readbacksAgree]
  | a :: b :: l => by rw [readbacksAgree_cons_cons, List.isChain_cons_cons, readbacksAgree_iff_isChain (b :: l)]

theorem readbacksAgree_iff {l : List ExchangeRecord} : readbacksAgree l = true ↔
    ∀ pre a b post c v w, l = pre ++ a :: b :: post →
      a.order = .writeCh c v → b.order = .readCh c → b.reply = some (.readCh w) → v = w := by
  rw [readbacksAgree_iff_isChain, List.isChain_iff_forall_rel_of_append_cons_cons]
  exact ⟨fun h pre a b post c v w hl => h hl c v w, fun h a b pre post hl c v w => h pre a b post c v w hl⟩

/-! ### An ADJUST burst's records (R141, R142) -/

/-- R142: a ONCE channel becomes FIXED at the value of the correction. -/
def ChannelRec.kept (v : Int) (k : ChannelRec) : ChannelRec :=
  if k.mode = .once then { k with mode := .fixed, preset := v } else k

section Adjusted

variable {k : ChannelRec} {v : Int} {w b : ExchangeRecord} {l : List ExchangeRecord} {cur : Option Int} {mark : Bool}
  {o : AdjustOutcome}

theorem adjustedRec_ok (h : judgeAdjust k v l = (cur, mark, .ok)) :
    adjustedRec k v l = ChannelRec.kept v { k with current := cur, mark := mark } := by
  simp [adjustedRec, h, ChannelRec.kept]

theorem adjustedRec_failed (h : judgeAdjust k v l = (cur, mark, o)) (ho : o ≠ .ok) :
    adjustedRec k v l = { k with current := cur, mark := mark } := by
  simp [adjustedRec, h, ho]

theorem judgeAdjust_locked (h : w.outcome = .locked) : judgeAdjust k v (w :: l) = (k.current, k.mark, .locked) := by
  simp only [judgeAdjust, h]

theorem judgeAdjust_refused (h : w.outcome = .refused ∨ w.outcome = .badOrder ∨ w.outcome = .badCheck) :
    judgeAdjust k v (w :: l) = (k.current, k.mark, .svcFail) := by
  rcases h with h | h | h <;> simp only [judgeAdjust, h]

theorem judgeAdjust_lost (h : w.outcome = .timeout ∨ w.outcome = .badReply) :
    judgeAdjust k v (w :: l) = (none, false, .svcFail) := by
  rcases h with h | h <;> simp only [judgeAdjust, h]

theorem judgeAdjust_written (h : w.outcome = .ok) : judgeAdjust k v [w] = (some v, true, .ok) := by
  simp only [judgeAdjust, h]

theorem judgeAdjust_readLocked (h : w.outcome = .ok) (hb : b.outcome = .locked) :
    judgeAdjust k v [w, b] = (some v, true, .locked) := by
  simp only [judgeAdjust, h, hb, if_true]

theorem judgeAdjust_readSame (h : w.outcome = .ok) (hb : b.outcome ≠ .locked) (hr : b.reply = some (.readCh v)) :
    judgeAdjust k v [w, b] = (some v, false, .ok) := by
  simp only [judgeAdjust, h, if_neg hb, hr, if_true]

theorem judgeAdjust_readOther {u : Int} (h : w.outcome = .ok) (hb : b.outcome ≠ .locked) (hr : b.reply = some (.readCh u))
    (hu : u ≠ v) : judgeAdjust k v [w, b] = (some u, false, .svcFail) := by
  simp only [judgeAdjust, h, if_neg hb, hr, if_neg hu]

theorem judgeAdjust_notRead (h : w.outcome = .ok) (hb : b.outcome ≠ .locked) (hr : ∀ u, b.reply ≠ some (.readCh u)) :
    judgeAdjust k v [w, b] = (some v, true, .svcFail) := by
  simp only [judgeAdjust, h, if_neg hb]

end Adjusted

/-! ### A VERIFY burst's records (R144) -/

section Verified

variable {q t : Quad ChannelRec} {a : ExchangeRecord} {c : Channel} {pre post l : List ExchangeRecord}

theorem verifyRecord_get_other (t : Quad ChannelRec) (h : a.order ≠ .readCh c) : (verifyRecord t a).get c = t.get c := by
  unfold verifyRecord
  split
  case h_1 d v ho hr => exact Quad.get_set_other _ _ fun hd => h (by rw [ho, hd])
  case h_2 => rfl

theorem verifyRecord_get_read {v : Int} (ho : a.order = .readCh c) (hr : a.reply = some (.readCh v)) :
    (verifyRecord t a).get c = { t.get c with current := some v, mark := false } := by
  simp only [verifyRecord, ho, hr, modChannel, Quad.get_set_same]

theorem verifyRecord_failed (hr : a.reply = none) : verifyRecord t a = t := by
  unfold verifyRecord
  split
  case h_1 hs => exact absurd (hr.symm.trans hs) (by simp)
  case h_2 => rfl

theorem foldl_verifyRecord_get_other (h : ∀ a ∈ l, a.order ≠ .readCh c) :
    (l.foldl verifyRecord q).get c = q.get c := by
  induction l generalizing q with
  | nil => rfl
  | cons a l ih =>
    obtain ⟨ha, hl⟩ := List.forall_mem_cons.mp h
    exact (ih hl).trans (verifyRecord_get_other q ha)

/-- One record alone can have read the channel. -/
theorem foldl_verifyRecord_get_once (h : ∀ b ∈ pre ++ post, b.order ≠ .readCh c) :
    ∃ t : Quad ChannelRec, t.get c = q.get c ∧
      ((pre ++ a :: post).foldl verifyRecord q).get c = (verifyRecord t a).get c := by
  obtain ⟨hpre, hpost⟩ := List.forall_mem_append.mp h
  refine ⟨pre.foldl verifyRecord q, foldl_verifyRecord_get_other hpre, ?_⟩
  rw [List.foldl_append, List.foldl_cons]
  exact foldl_verifyRecord_get_other hpost

theorem readsCurrent_iff : readsCurrent q a = true ↔
    ∃ c v, a.order = .readCh c ∧ a.reply = some (.readCh v) ∧ (q.get c).current = some v := by
  unfold readsCurrent
  split
  case h_1 c v ho hr => simp [ho, hr]
  case h_2 hno => exact iff_of_false (by simp) fun ⟨c, v, ho, hr, _⟩ => hno c v ho hr

theorem verified_iff {r : BurstReport} : verified q r = true ↔ r.result = .ok ∧
    ∀ a ∈ r.records, ∃ c v, a.order = .readCh c ∧ a.reply = some (.readCh v) ∧ (q.get c).current = some v := by
  simp only [verified, Bool.and_eq_true, beq_iff_eq, List.all_eq_true, readsCurrent_iff]

end Verified

namespace Station

variable {st u : Station} {x : Socket} {rest : List CruMsg} {q : Quad ChannelRec} {r : BurstReport} {c : Channel} {v : Int}
  {n : Nat}

/-! ### The end of a burst, heard -/

theorem takeBurstEnd_heard (h : Heard CruMsg.overtakes st.cru.inbox (.burstEnd x r) rest)
    (f : BurstReport → Station → Station) : st.takeBurstEnd x r.kind f = f r (st.cruLeft rest) := by
  rw [takeBurstEnd, takeFirst_heard (b := r) h (if_pos ⟨rfl, rfl⟩) fun m hm => by
    cases m <;> simp [CruMsg.overtakes, CruMsg.isRunOpened, isBurstEnd] at hm ⊢; grind]
  rfl

/-- The burst's end is taken: the table is `q`, and no request is in progress. -/
def burstDone (st : Station) (x : Socket) (rest : List CruMsg) (q : Quad ChannelRec) : Station := { st with
  cru := { st.cru with inbox := rest, sockets := st.cru.sockets.set x { table := some q, request := .none } } }

theorem modTable_setRequest (ht : (st.cruSocket x).table = some q) (f : Quad ChannelRec → Quad ChannelRec) :
    ((st.cruLeft rest).modTable x f).setRequest x .none = st.burstDone x rest (f q) := by
  unfold cruSocket at ht
  simp [modTable, setRequest, modCru, cruLeft, burstDone, ht]

theorem presetBurstEnd_heard (h : Heard CruMsg.overtakes st.cru.inbox (.burstEnd x r) rest)
    (ht : (st.cruSocket x).table = some q) (hk : r.kind = .preset) (hr : (st.cruSocket x).request = .preset r.id n) :
    presetBurstEnd x st = (st.burstDone x rest (r.records.foldl presetRecord q)).tellInc
      (.presetOutcome x n (decide (r.result = .ok) && readbacksAgree r.records)) := by
  have hr' : ((st.cruLeft rest).cruSocket x).request = .preset r.id n := hr
  rw [presetBurstEnd, ← hk, takeBurstEnd_heard h]
  simp only [hr', if_true, modTable_setRequest ht]
  rfl

theorem adjustBurstEnd_heard (h : Heard CruMsg.overtakes st.cru.inbox (.burstEnd x r) rest)
    (ht : (st.cruSocket x).table = some q) (hk : r.kind = .adjust) (hr : (st.cruSocket x).request = .adjust r.id c v) :
    adjustBurstEnd x st = (st.burstDone x rest (q.set c (adjustedRec (q.get c) v r.records))).tellStc
      (.adjusted x (judgeAdjust (q.get c) v r.records).2.2) := by
  have hr' : ((st.cruLeft rest).cruSocket x).request = .adjust r.id c v := hr
  have hc : (st.cruLeft rest).channel x c = some (q.get c) :=
    congrArg (Option.map fun t : Quad ChannelRec => t.get c) ht
  rw [adjustBurstEnd, ← hk, takeBurstEnd_heard h]
  simp only [hr', if_true, takeAdjust, hc, modTable_setRequest ht]
  rfl

/-- R141, R142: a burst judged to succeed. -/
theorem adjustBurstEnd_ok {cur : Option Int} {mark : Bool} (h : Heard CruMsg.overtakes st.cru.inbox (.burstEnd x r) rest)
    (ht : (st.cruSocket x).table = some q) (hk : r.kind = .adjust) (hr : (st.cruSocket x).request = .adjust r.id c v)
    (hj : judgeAdjust (q.get c) v r.records = (cur, mark, .ok)) :
    adjustBurstEnd x st =
      (st.burstDone x rest (q.set c (ChannelRec.kept v { q.get c with current := cur, mark := mark }))).tellStc
        (.adjusted x .ok) := by
  rw [adjustBurstEnd_heard h ht hk hr, adjustedRec_ok hj, hj]

/-- R141: a burst judged to fail. -/
theorem adjustBurstEnd_failed {cur : Option Int} {mark : Bool} {o : AdjustOutcome}
    (h : Heard CruMsg.overtakes st.cru.inbox (.burstEnd x r) rest) (ht : (st.cruSocket x).table = some q)
    (hk : r.kind = .adjust) (hr : (st.cruSocket x).request = .adjust r.id c v)
    (hj : judgeAdjust (q.get c) v r.records = (cur, mark, o)) (ho : o ≠ .ok) :
    adjustBurstEnd x st = (st.burstDone x rest (q.set c { q.get c with current := cur, mark := mark })).tellStc
      (.adjusted x o) := by
  rw [adjustBurstEnd_heard h ht hk hr, adjustedRec_failed hj ho, hj]

theorem verifyBurstEnd_heard (h : Heard CruMsg.overtakes st.cru.inbox (.burstEnd x r) rest)
    (ht : (st.cruSocket x).table = some q) (hk : r.kind = .verify) (hr : (st.cruSocket x).request = .verify r.id) :
    verifyBurstEnd x st =
      (st.burstDone x rest (r.records.foldl verifyRecord q)).reportVerification x (verified q r) := by
  have hr' : ((st.cruLeft rest).cruSocket x).request = .verify r.id := hr
  have ht' : ((st.cruLeft rest).cruSocket x).table = some q := ht
  rw [verifyBurstEnd, ← hk, takeBurstEnd_heard h]
  simp only [hr', ht', if_true, modTable_setRequest ht]

theorem reportVerification_true (st : Station) (x : Socket) :
    st.reportVerification x true = st.tellSlu (.verification x true st.bmr.phase) := rfl

theorem reportVerification_sealing (hp : st.bmr.phase = .sealing) :
    st.reportVerification x false = (st.tellSlu (.verification x false .sealing)).tellInc (.verifyFail x) := by
  simp only [reportVerification, hp, and_self, if_true]

theorem reportVerification_notSealing (hp : st.bmr.phase ≠ .sealing) :
    st.reportVerification x false = st.tellSlu (.verification x false st.bmr.phase) :=
  if_neg fun h => hp h.2

/-! ### The run-opened notice (R136, R147) -/

/-- R147: what the CRU tells the port about the request in progress of a socket. -/
def withdrawal (st : Station) (x : Socket) : Option MpcMsg :=
  (requestBurstId (st.cruSocket x).request).map (.withdraw x)

theorem closeRequest_eq (x : Socket) (st : Station) : closeRequest x st = { st with
    cru := { st.cru with
      sockets := st.cru.sockets.set x { table := freshTable (st.profile x), request := .none } }
    mpc := { st.mpc with inbox := st.mpc.inbox ++ (st.withdrawal x).toList } } := by
  unfold closeRequest withdrawal
  cases requestBurstId (st.cruSocket x).request with
  | none => simp [modCru, profile]
  | some b => rfl

theorem cruRunOpened_heard {h : RunHeader} (hh : st.cru.inbox = .runOpened h :: rest) :
    st.cruRunOpened = (st.cruLeft rest).each closeRequest := by
  simp only [cruRunOpened, cruRunOpenedNotice, hh]
  rfl

theorem each_closeRequest_changes (st : Station) : st.each closeRequest = { st with
    cru := { st.cru with sockets := (st.each closeRequest).cru.sockets }
    mpc := { st.mpc with inbox := st.mpc.inbox ++ ([0, 1, 2, 3] : List Socket).filterMap st.withdrawal } } := by
  have told : (st.each closeRequest).mpc.inbox =
      st.mpc.inbox ++ ([0, 1, 2, 3] : List Socket).filterMap st.withdrawal := by
    simp [each, closeRequest_eq, withdrawal, cruSocket, Quad.get_set_other, List.filterMap_eq_flatMap_toList]
  rw [← told]
  simp only [each, closeRequest_eq]

theorem cruSocket_each_closeRequest (st : Station) (x : Socket) :
    (st.each closeRequest).cruSocket x = { table := freshTable (st.profile x), request := .none } :=
  each_get (f := closeRequest) cruSocket (fun x _ => { table := freshTable (st.profile x), request := .none })
    (fun u => u.cfl = st.cfl) (fun y u hu => by rw [closeRequest_eq]; exact hu)
    (fun y u hu => by rw [closeRequest_eq, profile, hu]; exact Quad.get_set_same _ _ _)
    (fun y z u hz => by rw [closeRequest_eq]; exact Quad.get_set_other _ _ hz) rfl x

end Station

/-- Settles O51: the end of each burst on the table its records leave, and the notice socket by socket. -/
theorem burstEndsUpdateTheTable : Obligations.BurstEndsUpdateTheTable := by
  refine ⟨fun s x rest r q ha h ht => ⟨fun n hk hr => ?_, fun c v hk hr => ?_, fun hk hr => ?_⟩, fun s h rest ha hh => ?_⟩
  · refine ⟨r.records.foldl presetRecord q, next_of_run rfl ha (Station.presetBurstEnd_heard h ht hk hr),
      fun c => foldl_presetRecord_get c _ q, readbacksAgree_iff, fun c v hl => ?_, fun c v hl => ?_, fun c v o ho hl => ?_,
      fun c o ho hl => ?_, fun c v w hl => ?_⟩ <;> rw [hl]
    · rfl
    · rfl
    · rfl
    · rfl
    · exact ⟨by simp [presetRecord, modChannel], by simp [readbacksAgree]⟩
  · intro set kept w l hl
    have succeeds : ∀ {cur mark}, judgeAdjust (q.get c) v r.records = (cur, mark, .ok) →
        set (fun k => kept { k with current := cur, mark := mark }) .ok := fun hj =>
      next_of_run rfl ha (Station.adjustBurstEnd_ok h ht hk hr hj)
    have fails : ∀ {cur mark o}, judgeAdjust (q.get c) v r.records = (cur, mark, o) → o ≠ .ok →
        set (fun k => { k with current := cur, mark := mark }) o := fun hj ho =>
      next_of_run rfl ha (Station.adjustBurstEnd_failed h ht hk hr hj ho)
    rw [hl] at succeeds fails
    refine ⟨fun hw => fails (judgeAdjust_locked hw) (by decide), fun hw => fails (judgeAdjust_refused hw) (by decide),
      fun hw => fails (judgeAdjust_lost hw) (by decide), fun hw => ⟨fun hn => ?_, fun b hb => ?_⟩⟩
    · subst hn
      exact succeeds (judgeAdjust_written hw)
    · subst hb
      exact ⟨fun ho => fails (judgeAdjust_readLocked hw ho) (by decide),
        fun ho hv => succeeds (judgeAdjust_readSame hw ho hv),
        fun u ho hu hne => fails (judgeAdjust_readOther hw ho hu hne) (by decide),
        fun ho hno => fails (judgeAdjust_notRead hw ho hno) (by decide)⟩
  · have ended := Station.verifyBurstEnd_heard h ht hk hr
    refine ⟨r.records.foldl verifyRecord q, fun hok => ?_, fun hno hp => ?_, fun hno hp => ?_,
      fun c => foldl_verifyRecord_get_other, fun c v pre a post hl ho hv hp => ?_, fun c pre a post hl ho hn hp => ?_⟩
    · rw [verified_iff.mpr hok] at ended
      exact next_of_run rfl ha ended
    · rw [Bool.eq_false_iff.mpr (mt verified_iff.mp hno)] at ended
      exact next_of_run rfl ha (ended.trans (Station.reportVerification_sealing hp))
    · rw [Bool.eq_false_iff.mpr (mt verified_iff.mp hno)] at ended
      exact next_of_run rfl ha (ended.trans (Station.reportVerification_notSealing hp))
    · obtain ⟨t, hq, ht⟩ := foldl_verifyRecord_get_once (q := q) (a := a) hp
      rw [hl, ht, verifyRecord_get_read ho hv, hq]
    · obtain ⟨t, hq, ht⟩ := foldl_verifyRecord_get_once (q := q) (a := a) hp
      rw [hl, ht, verifyRecord_failed hn, hq]
  · refine answers_of_run rfl ha (Station.cruRunOpened_heard hh) ⟨?_, ?_, fun x => ?_, ?_⟩
    · rw [Station.each_closeRequest_changes]
      rfl
    · rw [Station.each_closeRequest_changes]
      rfl
    · exact Station.cruSocket_each_closeRequest _ x
    · rw [Station.each_closeRequest_changes]
      refine congrArg (s.st.mpc.inbox ++ ·) (congrArg (List.filterMap · _) (funext fun x => ?_))
      change Option.map _ (Station.requestBurstId (s.st.cruSocket x).request) = _
      cases (s.st.cruSocket x).request <;> rfl

end Sys2Proof.Machine
end

section
/-! PROOFS. The end of an exchange (R151, R152, R155, R156, R160): its burst goes on, or ends and is reported. -/

namespace Sys2Proof.Machine

/-! ### What follows an exchange -/

theorem restAfter_eq (o : Result) : restAfter o = if o = .timeout ∨ o = .badReply then 50 else 2 := by
  cases o <;> rfl

/-- The records of a burst once its exchange in hand has ended (R155). -/
def Running.recordsWith (r : Running) (o : Result) (reply : Option Reply) : List ExchangeRecord :=
  r.records ++ [{ order := r.order, outcome := o, reply := reply }]

/-- The report of a burst that ends with its exchange in hand (R155, R160). -/
def Running.report (r : Running) (o : Result) (reply : Option Reply) : BurstReport :=
  { id := r.id, kind := r.kind, result := o, records := r.recordsWith o reply }

namespace Station

variable {st : Station} {x : Socket} {r : Running} {o : Result} {reply : Option Reply} {rx rx' : List Byte} {n : Nat}

/-- R160 step 1, by the kind of the burst. -/
theorem reportBurst_eq (st : Station) (x : Socket) (b : BurstReport) : st.reportBurst x b = { st with
    inc := { st.inc with inbox := st.inc.inbox ++ (if b.kind = .probe then [.probeEnd x b] else []) }
    cru := { st.cru with inbox := st.cru.inbox ++
        (if b.kind = .preset ∨ b.kind = .adjust ∨ b.kind = .verify then [.burstEnd x b] else []) }
    slu := { st.slu with inbox := st.slu.inbox ++ (if b.kind = .seal then [.burstEnd x b] else []) } } := by
  unfold reportBurst
  cases hk : b.kind <;> simp [tellInc, tellCru, tellSlu]

/-- R160 step 2, by the kind of the burst. -/
theorem reportWrite_eq (st : Station) (x : Socket) (k : BurstKind) : st.reportWrite x k = { st with
    gcu := { st.gcu with inbox := st.gcu.inbox ++
        (if k = .preset ∨ k = .adjust then [.writeBurstEnd x 500] else []) } } := by
  unfold reportWrite
  cases k <;> simp [startsMask, tellGcu, Config.maskMs]

/-- The station after the last exchange of a burst: the burst is reported, and its port rests and moves up (R160). -/
def burstEnded (st : Station) (x : Socket) (r : Running) (o : Result) (reply : Option Reply) (pause : Nat) : Station :=
  { st with
    mpc := { st.mpc with
      ports := st.mpc.ports.set x
        { rest := some pause, waiting := none, running := (st.port x).waiting.map fun b => b.begun .waitRest } }
    inc := { st.inc with inbox := st.inc.inbox ++ (if r.kind = .probe then [.probeEnd x (r.report o reply)] else []) }
    cru := { st.cru with inbox := st.cru.inbox ++
        (if r.kind = .preset ∨ r.kind = .adjust ∨ r.kind = .verify then [.burstEnd x (r.report o reply)] else []) }
    slu := { st.slu with inbox := st.slu.inbox ++ (if r.kind = .seal then [.burstEnd x (r.report o reply)] else []) }
    gcu := { st.gcu with inbox := st.gcu.inbox ++
        (if r.kind = .preset ∨ r.kind = .adjust then [.writeBurstEnd x 500] else []) } }

theorem endExchange_goesOn {y : Order} {ys : List Order} (hr : r.rest = y :: ys) :
    st.endExchange x r .ok reply = st.modPort x fun p => { p with
      rest := some (restAfter .ok)
      running := some { r with order := y, rest := ys, records := r.recordsWith .ok reply, stage := .waitRest } } := by
  unfold endExchange
  rw [hr]
  rfl

theorem endExchange_ends (h : o ≠ .ok ∨ r.rest = []) :
    st.endExchange x r o reply = st.burstEnded x r o reply (restAfter o) := by
  have moves : st.endExchange x r o reply =
      ((st.reportBurst x (r.report o reply)).reportWrite x r.kind).modPort x fun p =>
        movedUp p (some (restAfter o)) := by
    unfold endExchange
    split
    · next hr => simp [hr] at h
    · rfl
  rw [moves, reportWrite_eq, reportBurst_eq]
  rfl

/-! ### The two commands that end an exchange -/

theorem exec_replyReceived {s : State} {p : Position} (hx : s.st.socketAt p = some x) (bytes : List RxByte) :
    exec (.replyReceived p bytes) s = s.run (replyReceived x bytes) := by
  have he : exec (.replyReceived p bytes) s = s.run fun st => st.atPosition p fun x => replyReceived x bytes := rfl
  rw [he, State.run, atPosition_some hx]
  rfl

theorem replyReceived_waits {bytes : List RxByte} (hr : (st.port x).running = some r) (hs : r.stage = .awaiting rx n)
    (h : receive r.order rx bytes = (none, rx')) : st.replyReceived x bytes =
      st.modPort x fun q => { q with running := some { r with stage := .awaiting rx' n } } := by
  simp only [replyReceived, hr, hs, h]

theorem replyReceived_decided {bytes : List RxByte} (hr : (st.port x).running = some r) (hs : r.stage = .awaiting rx n)
    (h : receive r.order rx bytes = (some (o, reply), rx')) : st.replyReceived x bytes = st.endExchange x r o reply := by
  simp only [replyReceived, hr, hs, h]

theorem replyTimerExpiry_silent (hr : (st.port x).running = some r) (hs : r.stage = .awaiting [] n) :
    st.replyTimerExpiry x = st.endExchange x r .timeout none := by
  simp only [replyTimerExpiry, hr, hs]

theorem replyTimerExpiry_begun (hr : (st.port x).running = some r) (hs : r.stage = .awaiting rx n) (hx : rx ≠ []) :
    st.replyTimerExpiry x = st.endExchange x r .badReply none := by
  obtain ⟨b, bs, rfl⟩ := List.exists_cons_of_ne_nil hx
  simp only [replyTimerExpiry, hr, hs]

end Station

section

variable {s : State} {c : Instr} {f : Station → Station} {x : Socket} {r : Running} {o : Result} {reply : Option Reply}
  {pause : Nat}

/-- A command that ends an exchange: after OK with orders left the burst goes on, and else it ends. -/
theorem exchange_ends (he : exec c s = s.run f) (ha : s.Awake) (hf : f s.st = s.st.endExchange x r o reply)
    (hp : restAfter o = pause) :
    (∀ y ys, o = .ok → r.rest = y :: ys → exec c s = .next (s.upd fun st => st.modPort x fun p => { p with
      rest := some pause
      running := some { r with order := y, rest := ys, records := r.recordsWith o reply, stage := .waitRest } })) ∧
    ((o ≠ .ok ∨ r.rest = []) → exec c s = .next (s.upd fun st => st.burstEnded x r o reply pause)) := by
  subst hp
  refine ⟨fun y ys ho hr => ?_, fun h => next_of_run he ha (hf.trans (Station.endExchange_ends h))⟩
  subst ho
  exact next_of_run he ha (hf.trans (Station.endExchange_goesOn hr))

end

end Sys2Proof.Machine
end

section
/-! PROOFS. The bytes of a reply (R151, R198): when they decide the exchange and what they decide, check by check. -/

namespace Sys2Proof.Machine

/-! ### Statuses and fields (R198) -/

theorem replyStatus_unknown {b : Byte} (h : 4 < b.toNat) : replyStatus b = none := by
  unfold replyStatus
  split
  case h_6 => rfl
  all_goals omega

theorem lockState_unknown {b : Byte} (h : 1 < b.toNat) : lockState b = none := by
  unfold lockState
  split
  case h_3 => rfl
  all_goals omega

theorem replyFields_ident {b : List Byte} {l : Bool} (h : lockState (byteAt b 11) = some l) : replyFields .ident b =
    some (.ident (word16 b 0) (word32 b 2 ++ word32 b 6) (maskFlags (byteAt b 10)) l) := by
  simp [replyFields, h]

theorem replyFields_ident_unknown {b : List Byte} (h : 1 < (byteAt b 11).toNat) : replyFields .ident b = none := by
  simp [replyFields, lockState_unknown h]

theorem replyFields_lock {b : List Byte} {l : Bool} (h : lockState (byteAt b 0) = some l) :
    replyFields .lock b = some (.lock l) := by
  simp [replyFields, h]

theorem replyFields_lock_unknown {b : List Byte} (h : 1 < (byteAt b 0).toNat) : replyFields .lock b = none := by
  simp [replyFields, lockState_unknown h]

theorem replyFields_readSeal_absent {b : List Byte} (h : byteAt b 0 = 0) (hl : b.length = 1) :
    replyFields .readSeal b = some (.readSeal none) := by
  simp [replyFields, h, hl]

theorem replyFields_readSeal_present {b : List Byte} (h : byteAt b 0 = 1) (hl : b.length = 22) :
    replyFields .readSeal b = some (.readSeal (some (b.drop 1))) := by
  simp [replyFields, h, hl]

theorem replyFields_readSeal_unknown {b : List Byte} (h0 : byteAt b 0 = 0 → b.length ≠ 1)
    (h1 : byteAt b 0 = 1 → b.length ≠ 22) : replyFields .readSeal b = none := by
  simp only [replyFields]
  split
  · next hb hl => exact absurd hl (h0 (BitVec.eq_of_toNat_eq hb))
  · next hb hl => exact absurd hl (h1 (BitVec.eq_of_toNat_eq hb))
  · rfl

theorem replyLengths_failed {r : Result} (h : r ≠ .ok) : (∀ c, replyLengths (.readCh c) r = [1]) ∧
    (∀ c v, replyLengths (.writeCh c v) r = [1]) ∧ ∀ o : Order, o.channel = none → replyLengths o r = [0] := by
  refine ⟨fun c => ?_, fun c v => ?_, fun o ho => ?_⟩
  · simp only [replyLengths]
  · simp only [replyLengths]
  · cases o with
    | readCh c => cases ho
    | writeCh c v => cases ho
    | _ =>
      cases r with
      | ok => exact absurd rfl h
      | _ => rfl

/-! ### The checks of R151 on the bytes so far -/

/-- The body length a reply declares. -/
abbrev replyBodyLength (q : List Byte) : Nat := (byteAt q 3).toNat

/-- R151 check 6: the check code is that of the bytes between the start byte and it. -/
abbrev ReplyChecks (q : List Byte) : Prop :=
  crc8 ((q.drop 1).take (3 + replyBodyLength q)) = byteAt q (4 + replyBodyLength q)

/-- R151 check 7: the reply carries the order's code, and the channel the order names. -/
abbrev ReplyAnswers (o : Order) (q : List Byte) : Prop :=
  byteAt q 1 = o.code ∧ ∀ c, o.channel = some c → byteAt q 4 = BitVec.ofNat 8 c.val

/-- R151 checks 8 and 9: what the status, and for OK the fields, make of a reply that passed checks 6 and 7. -/
def answeredOutcome (o : Order) (q : List Byte) : Option (Result × Option Reply) :=
  match replyStatus (byteAt q 2) with
  | none => some (.badReply, none)
  | some .ok =>
    match replyFields o ((q.drop 4).take (replyBodyLength q)) with
    | none => some (.badReply, none)
    | some f => some (.ok, some f)
  | some r => some (r, none)

section

variable {o : Order} {q : List Byte}

theorem answeredOutcome_bad (h : replyStatus (byteAt q 2) = none ∨
      (replyStatus (byteAt q 2) = some .ok ∧ replyFields o ((q.drop 4).take (replyBodyLength q)) = none)) :
    answeredOutcome o q = some (.badReply, none) := by
  rcases h with hs | ⟨hs, hf⟩
  · simp only [answeredOutcome, hs]
  · simp only [answeredOutcome, hs, hf]

theorem answeredOutcome_ok {f : Reply} (hs : replyStatus (byteAt q 2) = some .ok)
    (hf : replyFields o ((q.drop 4).take (replyBodyLength q)) = some f) : answeredOutcome o q = some (.ok, some f) := by
  simp only [answeredOutcome, hs, hf]

theorem answeredOutcome_status {r : Result} (hs : replyStatus (byteAt q 2) = some r) (hno : r ≠ .ok) :
    answeredOutcome o q = some (r, none) := by
  simp only [answeredOutcome, hs]

end

theorem lengthWrong_some {o : Order} {r : Result} {n : Nat} : lengthWrong o (some r) n = true ↔ n ∉ replyLengths o r := by
  simp [lengthWrong]

theorem lengthWrong_eq_false {o : Order} {t : Option Result} {n : Nat} (h : ∀ r, t = some r → n ∈ replyLengths o r) :
    lengthWrong o t n = false := by
  cases t with
  | none => rfl
  | some r => simp [lengthWrong, h r rfl]

theorem channelWrong_eq_false {o : Order} {b : Byte} :
    channelWrong o b = false ↔ ∀ c, o.channel = some c → b = BitVec.ofNat 8 c.val := by
  unfold channelWrong
  cases o.channel <;> simp [codeOf]

section

variable {o : Order} {q : List Byte}

theorem judgeReply_start (hl : q.length = 1) (h : byteAt q 0 ≠ 0x3C) : judgeReply o q = some (.badReply, none) :=
  if_pos ⟨hl, h⟩

theorem judgeReply_header (hl : q.length < 4) (h : q.length = 1 → byteAt q 0 = 0x3C) : judgeReply o q = none :=
  (if_neg fun hs => hs.2 (h hs.1)).trans (if_pos hl)

theorem judgeReply_length {r : Result} (hl : q.length = 4) (hs : replyStatus (byteAt q 2) = some r)
    (h : replyBodyLength q ∉ replyLengths o r) : judgeReply o q = some (.badReply, none) := by
  have wrong := lengthWrong_some.mpr h
  simp [judgeReply, hl, hs, wrong]

theorem judgeReply_lengthFits (hl : q.length = 4)
    (h : ∀ r, replyStatus (byteAt q 2) = some r → replyBodyLength q ∈ replyLengths o r) : judgeReply o q = none := by
  have fits := lengthWrong_eq_false h
  have part : 4 < 5 + (byteAt q 3).toNat := by omega
  simp [judgeReply, hl, fits, part]

theorem judgeReply_body (hl : 5 ≤ q.length) (h : q.length < 5 + replyBodyLength q) : judgeReply o q = none := by
  have not1 : q.length ≠ 1 := by omega
  have not4 : q.length ≠ 4 := by omega
  simp [judgeReply, not1, not4, h]

/-! A reply whose last byte is there: the check code, what it answers, its status and its fields decide, in this order. -/

variable (whole : 5 + replyBodyLength q ≤ q.length)
include whole

theorem judgeReply_of_whole : judgeReply o q =
    if ¬ ReplyChecks q then some (.badReply, none)
    else if byteAt q 1 ≠ o.code then some (.badReply, none)
    else if channelWrong o (byteAt q 4) then some (.badReply, none)
    else answeredOutcome o q := by
  have not1 : q.length ≠ 1 := by omega
  have not3 : ¬ q.length < 4 := by omega
  have not4 : q.length ≠ 4 := by omega
  unfold judgeReply
  rw [if_neg fun h => not1 h.1, if_neg not3, if_neg fun h => not4 h.1, if_neg (Nat.not_lt.mpr whole)]
  rfl

theorem judgeReply_checkWrong (h : ¬ ReplyChecks q) : judgeReply o q = some (.badReply, none) :=
  (judgeReply_of_whole whole).trans (if_pos h)

theorem judgeReply_answerWrong (hc : ReplyChecks q) (h : ¬ ReplyAnswers o q) :
    judgeReply o q = some (.badReply, none) := by
  rw [judgeReply_of_whole whole, if_neg (not_not_intro hc)]
  by_cases code : byteAt q 1 = o.code
  · have wrong : channelWrong o (byteAt q 4) = true :=
      Bool.of_not_eq_false fun hw => h ⟨code, channelWrong_eq_false.mp hw⟩
    rw [if_neg (not_not_intro code), if_pos wrong]
  · exact if_pos code

theorem judgeReply_answered (hc : ReplyChecks q) (ha : ReplyAnswers o q) : judgeReply o q = answeredOutcome o q := by
  obtain ⟨code, chan⟩ := ha
  rw [judgeReply_of_whole whole, if_neg (not_not_intro hc), if_neg (not_not_intro code), channelWrong_eq_false.mpr chan]
  exact if_neg Bool.false_ne_true

end

/-! ### Byte by byte (R151) -/

theorem byteAt_last_of_first {rx : List Byte} {b : Byte} (h : (rx ++ [b]).length = 1) : byteAt (rx ++ [b]) 0 = b := by
  have empty : rx = [] := by simpa using h
  subst empty
  rfl

theorem receive_decides {o : Order} {rx : List Byte} {b : Byte} {d : Result × Option Reply}
    (h : judgeReply o (rx ++ [b]) = some d) (bs : List RxByte) :
    receive o rx (some b :: bs) = (some d, rx ++ [b]) := by
  simp only [receive, h]

theorem receive_waits {o : Order} {rx : List Byte} {b : Byte} (h : judgeReply o (rx ++ [b]) = none) (bs : List RxByte) :
    receive o rx (some b :: bs) = receive o (rx ++ [b]) bs := by
  simp only [receive, h]

/-! ### The obligation -/

/-- Settles O53: both commands that end an exchange by `exchange_ends`, each byte of a reply by the first check of R151 that
decides it, and the statuses, lengths and fields of R198 by their tables. -/
theorem exchangesEndBursts : Obligations.ExchangesEndBursts := by
  refine ⟨fun s p x r rx n ha hx hr hs => ?_, fun o rx => ⟨rfl, fun _ => rfl⟩, fun o rx b bs => ?_, fun b => ?_,
    fun c v f r hno => ?_, fun b c v f => ?_⟩
  · refine ⟨fun bytes rx' h => ?_, fun bytes o reply rx' h => ?_, fun he => ?_, fun hne => ?_⟩
    · exact next_of_run (Station.exec_replyReceived hx bytes) ha (Station.replyReceived_waits hr hs h)
    · exact exchange_ends (Station.exec_replyReceived hx bytes) ha (Station.replyReceived_decided hr hs h) (restAfter_eq o)
    · subst he
      exact exchange_ends rfl ha (Station.replyTimerExpiry_silent hr hs) rfl
    · exact exchange_ends rfl ha (Station.replyTimerExpiry_begun hr hs hne) rfl
  · refine ⟨fun hl => ⟨fun h => ?_, fun h => ?_⟩, fun hl => ?_, fun hl => ⟨fun r hs h => ?_, fun h => ?_⟩, fun hl h => ?_,
      fun whole => ?_⟩
    · exact receive_decides (judgeReply_start hl (by rwa [byteAt_last_of_first hl])) bs
    · exact receive_waits (judgeReply_header (by omega) fun _ => by rwa [byteAt_last_of_first hl]) bs
    · exact receive_waits (judgeReply_header (by omega) (by omega)) bs
    · exact receive_decides (judgeReply_length hl hs h) bs
    · exact receive_waits (judgeReply_lengthFits hl h) bs
    · exact receive_waits (judgeReply_body hl h) bs
    · have answered := fun hc ha => judgeReply_answered (o := o) whole hc ha
      exact ⟨fun h => receive_decides (judgeReply_checkWrong whole h) bs,
        fun hc h => receive_decides (judgeReply_answerWrong whole hc h) bs,
        fun hc ha h => receive_decides ((answered hc ha).trans (answeredOutcome_bad h)) bs,
        fun f hc ha hs hf => receive_decides ((answered hc ha).trans (answeredOutcome_ok hs hf)) bs,
        fun r hc ha hs hno => receive_decides ((answered hc ha).trans (answeredOutcome_status hs hno)) bs⟩
  · exact ⟨by rintro rfl; rfl, by rintro rfl; rfl, by rintro rfl; rfl, by rintro rfl; rfl, by rintro rfl; rfl,
      replyStatus_unknown⟩
  · obtain ⟨hr, hw, h0⟩ := replyLengths_failed hno
    exact ⟨rfl, rfl, rfl, rfl, rfl, rfl, hr c, hw c v, h0 .ident rfl, h0 (.writeSeal f) rfl, h0 .lock rfl,
      h0 .readSeal rfl⟩
  · exact ⟨fun h => replyFields_ident (by rw [h]; rfl), fun h => replyFields_ident (by rw [h]; rfl),
      replyFields_ident_unknown, rfl, rfl, rfl, fun h => replyFields_lock (by rw [h]; rfl),
      fun h => replyFields_lock (by rw [h]; rfl), replyFields_lock_unknown, replyFields_readSeal_absent,
      replyFields_readSeal_present, replyFields_readSeal_unknown⟩

end Sys2Proof.Machine
end

section
/-! PROOFS. What a step keeps of the laws of the queues, the ports, the seal bursts, the insertion states and the counters: each
block's part said for itself, and for the whole station as a relation that every operation carries on. -/

namespace Sys2Proof.Machine

/-! ### The inbound queue (R52) -/

namespace Station

theorem frameFill_append (q r : List Entry) : frameFill (q ++ r) = frameFill q + frameFill r := by
  simp [frameFill]

theorem frameFill_tail_le (e : Entry) (q : List Entry) : frameFill q ≤ frameFill (e :: q) := by
  rw [← List.singleton_append, frameFill_append]
  omega

/-- Markers take no frame space. -/
theorem frameFill_placeMarker {m : Entry} (hm : m.isMarker = true) (q : List Entry) :
    frameFill (placeMarker q m) = frameFill q := by
  have hfill : frameFill [m] = 0 := by cases m <;> simp_all [Entry.isMarker, frameFill]
  unfold placeMarker
  split
  · rfl
  · rw [frameFill_append, hfill, Nat.add_zero]

end Station

/-- The slot of a frame that this station may find clean and receive (R46, R47). -/
def Lkc.AwaitsFrame (l : Lkc) : Prop := l.medium = .objection ∧ l.mark = false ∧ l.followed ≠ none ∧ l.link ≠ .listen

theorem Lkc.inboundSound_iff {l : Lkc} : l.InboundSound ↔ Station.frameFill l.inbound ≤ Config.inboundRoom ∧
    (l.AwaitsFrame → Station.frameFill l.inbound < Config.inboundRoom) := by
  simp only [InboundSound, AwaitsFrame, and_imp]

/-! ### The outbound queue (R54, R55) -/

namespace Lkc

variable {l m : Lkc}

/-- A queue whose bodies are some of the bodies there were, in their order. -/
theorem OutboundSound.of_bodies (h : l.OutboundSound)
    (hb : (m.outbound.map OutEntry.body).Sublist (l.outbound.map OutEntry.body))
    (hd : m.deferredJoin = l.deferredJoin) : m.OutboundSound := by
  have count : ∀ p : Body → Bool,
      (m.outbound.filter fun e => p e.body).length ≤ (l.outbound.filter fun e => p e.body).length :=
    fun p => by simpa [List.filter_map, Function.comp_def] using (hb.filter p).length_le
  obtain ⟨hu, ha, hs, hj⟩ := h
  have ordered : (m.outbound.map OutEntry.body).Pairwise
      fun b c => Station.urgentBody c = true → Station.urgentBody b = true :=
    (List.pairwise_map.mpr hu).sublist hb
  exact ⟨List.pairwise_map.mp ordered, (count _).trans ha, (count _).trans hs, hd ▸ hj⟩

/-- An entry placed where its kind has its place free. -/
theorem OutboundSound.insert (h : l.OutboundSound) {e : OutEntry}
    (hout : m.outbound = Station.insertEntry l.outbound e)
    (ha : Station.inAnnouncePlace e.body = true → ∀ x ∈ l.outbound, Station.inAnnouncePlace x.body = false)
    (hs : Station.isState e.body = true → ∀ x ∈ l.outbound, Station.isState x.body = false)
    (hd : m.deferredJoin = l.deferredJoin ∨ m.deferredJoin = none) : m.OutboundSound := by
  obtain ⟨hu, hla, hls, hj⟩ := h
  have parts := List.takeWhile_append_dropWhile (p := fun x : OutEntry => Station.urgentBody x.body) (l := l.outbound)
  have count : ∀ p : Body → Bool, (l.outbound.filter fun x => p x.body).length ≤ 1 →
      (p e.body = true → ∀ x ∈ l.outbound, p x.body = false) → (m.outbound.filter fun x => p x.body).length ≤ 1 := by
    intro p hl hp
    have hperm : m.outbound.Perm (e :: l.outbound) := by
      rw [hout, Station.insertEntry]
      split
      · conv_rhs => rw [← parts]
        exact List.perm_middle
      · exact List.perm_append_singleton _ _
    rw [(hperm.filter fun x => p x.body).length_eq, List.filter_cons]
    split
    · rw [List.filter_eq_nil_iff.mpr fun x hx => by simp [hp ‹_› x hx]]
      simp
    · exact hl
  refine ⟨?_, count _ hla ha, count _ hls hs, fun d hd' => ?_⟩
  · rw [hout, Station.insertEntry]
    split
    · rename_i hurgent
      rw [← parts, List.pairwise_append] at hu
      obtain ⟨hfront, hback, hcross⟩ := hu
      refine List.pairwise_append.mpr ⟨hfront, List.pairwise_cons.mpr ⟨fun _ _ _ => hurgent, hback⟩,
        fun x hx _ _ _ => ?_⟩
      exact List.mem_takeWhile_imp (p := fun x : OutEntry => Station.urgentBody x.body) hx
    · rename_i hordinary
      refine List.pairwise_append.mpr ⟨hu, List.pairwise_singleton _ _, fun x _ y hy hyu => ?_⟩
      rw [List.mem_singleton.mp hy] at hyu
      exact absurd hyu hordinary
  · rcases hd with h | h
    · exact hj d (h ▸ hd')
    · simp [h] at hd'

/-- With an entry of a kind on the wire, none of that kind is left when what is on the wire has gone. -/
theorem none_left {q : List OutEntry} {p : Body → Bool} (h : (q.filter fun e => p e.body).length ≤ 1) {e : OutEntry}
    (he : e ∈ q) (hw : e.place = .onWire) (hp : p e.body = true) :
    ∀ x ∈ q.filter (fun e => e.place != .onWire), p x.body = false := by
  intro x hx
  by_contra hc
  rw [Bool.not_eq_false] at hc
  obtain ⟨hxq, hxp⟩ := List.mem_filter.mp hx
  have hmem : ∀ {y}, y ∈ q → p y.body = true → y ∈ q.filter fun e => p e.body :=
    fun hy hpy => List.mem_filter.mpr ⟨hy, hpy⟩
  have : x = e := by
    have hx1 := hmem hxq hc
    have he1 := hmem he hp
    match hq : q.filter fun e => p e.body with
    | [] => simp [hq] at he1
    | [a] => rw [hq] at hx1 he1; rw [List.mem_singleton.mp hx1, List.mem_singleton.mp he1]
    | a :: b :: r => simp [hq] at h
  simp [this, hw] at hxp

end Lkc

/-- Entries that keep their bodies, some of them gone. -/
theorem bodies_filterMap {f : OutEntry → Option OutEntry} (h : ∀ e d, f e = some d → d.body = e.body)
    (q : List OutEntry) :
    ((q.filterMap f).map OutEntry.body).Sublist (q.map OutEntry.body) := by
  induction q with
  | nil => exact .slnil
  | cons e q ih =>
    cases hf : f e with
    | none => rw [List.filterMap_cons_none hf]; exact ih.cons _
    | some d =>
      rw [List.filterMap_cons_some hf, List.map_cons, List.map_cons, h e d hf]
      exact ih.cons_cons _

theorem bodies_map {f : OutEntry → OutEntry} (h : ∀ e, (f e).body = e.body) (q : List OutEntry) :
    (q.map f).map OutEntry.body = q.map OutEntry.body := by
  simp [h]

theorem bodies_returnEntries (p : Place) (q : List OutEntry) :
    ((Station.returnEntries p q).map OutEntry.body).Sublist (q.map OutEntry.body) :=
  bodies_filterMap (fun e d h => by
    split at h
    · split at h
      · cases h
      · cases h; rfl
    · cases h; rfl) q

theorem bodies_keepObjected (q : List OutEntry) :
    ((q.filterMap Station.keepObjected).map OutEntry.body).Sublist (q.map OutEntry.body) :=
  bodies_filterMap (fun e d h => by
    unfold Station.keepObjected at h
    split at h
    · split at h
      · cases h
      · cases h; rfl
    · cases h; rfl) q

/-! ### What a change of one block keeps -/

/-- A change of the LKC keeps its laws. -/
structure Lkc.Keeps (l m : Lkc) : Prop where
  inbound : l.InboundSound → m.InboundSound
  outbound : l.OutboundSound → m.OutboundSound
  objections : l.objections ≤ Config.objectionLimit → m.objections ≤ Config.objectionLimit

structure Rpu.Keeps (r u : Rpu) : Prop where
  objectionTotal : r.objectionTotal ≤ Config.counterMax → u.objectionTotal ≤ Config.counterMax
  ignored : r.ignored ≤ Config.counterMax → u.ignored ≤ Config.counterMax

structure IncSocket.Keeps (i j : IncSocket) : Prop where
  sound : i.Sound → j.Sound
  changes : i.changes ≤ Config.smallCountMax → j.changes ≤ Config.smallCountMax
  overburdenFaults : i.overburdenFaults ≤ Config.smallCountMax → j.overburdenFaults ≤ Config.smallCountMax
  openFaults : i.openFaults ≤ Config.smallCountMax → j.openFaults ≤ Config.smallCountMax

theorem Lkc.Keeps.refl (l : Lkc) : l.Keeps l := ⟨id, id, id⟩

theorem Lkc.Keeps.trans {l m n : Lkc} (h : l.Keeps m) (k : m.Keeps n) : l.Keeps n :=
  ⟨k.inbound ∘ h.inbound, k.outbound ∘ h.outbound, k.objections ∘ h.objections⟩

theorem Rpu.Keeps.refl (r : Rpu) : r.Keeps r := ⟨id, id⟩

theorem Rpu.Keeps.trans {r u v : Rpu} (h : r.Keeps u) (k : u.Keeps v) : r.Keeps v :=
  ⟨k.objectionTotal ∘ h.objectionTotal, k.ignored ∘ h.ignored⟩

theorem IncSocket.Keeps.refl (i : IncSocket) : i.Keeps i := ⟨id, id, id, id⟩

theorem IncSocket.Keeps.trans {i j k : IncSocket} (h : i.Keeps j) (h' : j.Keeps k) : i.Keeps k :=
  ⟨h'.sound ∘ h.sound, h'.changes ∘ h.changes, h'.overburdenFaults ∘ h.overburdenFaults,
    h'.openFaults ∘ h.openFaults⟩

/-- A change of the LKC that brings no frame, calls for no more room and raises no count. -/
theorem Lkc.Keeps.of_less {l m : Lkc} (hf : Station.frameFill m.inbound ≤ Station.frameFill l.inbound)
    (ha : m.AwaitsFrame → l.AwaitsFrame) (ho : l.OutboundSound → m.OutboundSound) (hc : m.objections ≤ l.objections) :
    l.Keeps m where
  inbound h := by
    rw [Lkc.inboundSound_iff] at h ⊢
    exact ⟨hf.trans h.1, fun hm => hf.trans_lt (h.2 (ha hm))⟩
  outbound := ho
  objections h := hc.trans h

theorem satSucc_le {k n : Nat} (h : n ≤ k) : satSucc k n ≤ k := by
  unfold satSucc
  split <;> omega

/-! ### What a change of the station keeps -/

/-- From `a` on, the station has come to `b` with its laws kept. -/
structure Station.Keeps (a b : Station) : Prop where
  lkc : a.lkc.Keeps b.lkc
  rpu : a.rpu.Keeps b.rpu
  inc : ∀ x, (a.incSocket x).Keeps (b.incSocket x)
  port : ∀ x, (a.port x).Sound → (b.port x).Sound
  seals : a.SealBurstsApart → b.SealBurstsApart

namespace Station.Keeps

variable {a b c : Station}

theorem refl (a : Station) : a.Keeps a := ⟨.refl _, .refl _, fun _ => .refl _, fun _ => id, id⟩

theorem trans (h : a.Keeps b) (k : b.Keeps c) : a.Keeps c :=
  ⟨h.lkc.trans k.lkc, h.rpu.trans k.rpu, fun x => (h.inc x).trans (k.inc x), fun x => k.port x ∘ h.port x,
    k.seals ∘ h.seals⟩

theorem counters (h : a.Keeps b) (ha : a.CountersSound) : b.CountersSound := by
  obtain ⟨ho, ht, hg, hi⟩ := ha
  exact ⟨h.lkc.objections ho, h.rpu.objectionTotal ht, h.rpu.ignored hg, fun x =>
    ⟨(h.inc x).changes (hi x).1, (h.inc x).overburdenFaults (hi x).2.1, (h.inc x).openFaults (hi x).2.2⟩⟩

end Station.Keeps

end Sys2Proof.Machine
end

section
/-! PROOFS. The laws of the station through the operations the blocks share, and through every command of the Link Controller,
the Report Unit and the Bench Mirror. -/

namespace Sys2Proof.Machine

/-! ### One socket of the Insertion Controller (R109, R110) -/

namespace IncSocket

theorem sound_reset : IncSocket.reset.Sound := by simp [Sound, reset]

/-- R110: a shunt closed on request. -/
theorem keeps_shut (i : IncSocket) : i.Keeps i.shut := by
  unfold shut
  split
  · rename_i hs
    refine ⟨fun h => ?_, id, id, id⟩
    rcases hs with hs | hs <;> simp_all [Sound]
  · exact .refl i

theorem keeps_lateFault (c : JoinFault) (i : IncSocket) : i.Keeps (Station.lateFault c i) := by
  unfold Station.lateFault
  split
  · exact ⟨id, id, id, id⟩
  · exact .refl i

end IncSocket

namespace Station.Keeps

variable {a st : Station} {s : Socket}

/-! ### One block at a time -/

section
variable (h : a.Keeps st)
include h

theorem modCtx {f : RunCtx → RunCtx} : a.Keeps (st.modCtx s f) := { h with }
theorem modGcu {f : GcuSocket → GcuSocket} : a.Keeps (st.modGcu s f) := { h with }
theorem modCru {f : CruSocket → CruSocket} : a.Keeps (st.modCru s f) := { h with }
theorem tellStc {m : StcMsg} : a.Keeps (st.tellStc m) := { h with }
theorem tellGcu {m : GcuMsg} : a.Keeps (st.tellGcu m) := { h with }
theorem tellInc {m : IncMsg} : a.Keeps (st.tellInc m) := { h with }
theorem tellCru {m : CruMsg} : a.Keeps (st.tellCru m) := { h with }
theorem tellMpc {m : MpcMsg} : a.Keeps (st.tellMpc m) := { h with }
theorem tellSlu {m : SluMsg} : a.Keeps (st.tellSlu m) := { h with }
theorem tellAll {n : RunNotice} : a.Keeps (st.tellAll n) := { h with }

theorem modLkc {f : Lkc → Lkc} (hf : st.lkc.Keeps (f st.lkc)) : a.Keeps (st.modLkc f) :=
  { h with lkc := h.lkc.trans hf }

theorem modInc {f : IncSocket → IncSocket} (hf : (st.incSocket s).Keeps (f (st.incSocket s))) : a.Keeps (st.modInc s f) := by
  refine { h with inc := fun x => (h.inc x).trans ?_ }
  rw [incSocket_modInc]
  split
  · subst x; exact hf
  · exact .refl _

theorem modPort {f : Port → Port} (hf : (st.port s).Sound → (f (st.port s)).Sound) : a.Keeps (st.modPort s f) := by
  refine { h with port := fun x hx => ?_ }
  rw [port_modPort]
  split
  · subst x; exact hf (h.port _ hx)
  · exact h.port x hx

/-- A socket of the SLU asks for no SEAL burst that it did not ask for before. -/
theorem modSlu {f : SluSocket → SluSocket}
    (hf : ∀ b, (f (st.sluSocket s)).request = .seal b → (st.sluSocket s).request = .seal b) : a.Keeps (st.modSlu s f) := by
  have asked : ∀ x b, ((st.modSlu s f).sluSocket x).request = .seal b →
      (st.sluSocket x).request = .seal b := fun x b hx => by
    rw [sluSocket_modSlu] at hx
    split at hx
    · subst x; exact hf b hx
    · exact hx
  exact { h with seals := fun ha x b hx => ⟨(h.seals ha x b (asked x b hx)).1,
    fun y hy hc => (h.seals ha x b (asked x b hx)).2 y hy (asked y b hc)⟩ }

/-! ### Taking a message -/

theorem each {f : Socket → Station → Station} (hf : ∀ s st, a.Keeps st → a.Keeps (f s st)) : a.Keeps (st.each f) :=
  each_keeps hf h

theorem atPosition {p : Position} {f : Socket → Station → Station} (hf : ∀ s, a.Keeps (f s st)) :
    a.Keeps (st.atPosition p f) := by
  unfold Station.atPosition
  split
  · exact hf _
  · exact h

theorem stcNotice {β : Type} {pick : StcMsg → Option β} {f : β → Station → Station}
    (hf : ∀ b st, a.Keeps st → a.Keeps (f b st)) : a.Keeps (st.stcNotice pick f) := by
  unfold Station.stcNotice
  split
  · exact hf _ _ { h with }
  · exact h

theorem stcReport {β : Type} {line : Option ReportLine} {pick : StcMsg → Option β} {f : β → Station → Station}
    (hf : ∀ b st, a.Keeps st → a.Keeps (f b st)) : a.Keeps (st.stcReport line pick f) := by
  unfold Station.stcReport
  split
  · exact hf _ _ { h with }
  · exact h

theorem incNotice {β : Type} {pick : IncMsg → Option β} {f : β → Station → Station}
    (hf : ∀ b st, a.Keeps st → a.Keeps (f b st)) : a.Keeps (st.incNotice pick f) := by
  unfold Station.incNotice
  split
  · exact hf _ _ { h with }
  · exact h

theorem incReport {β : Type} {pick : IncMsg → Option β} {f : β → Station → Station}
    (hf : ∀ b st, a.Keeps st → a.Keeps (f b st)) : a.Keeps (st.incReport pick f) := by
  unfold Station.incReport
  split
  · exact hf _ _ { h with }
  · exact h

theorem cruReport {β : Type} {pick : CruMsg → Option β} {f : β → Station → Station}
    (hf : ∀ b st, a.Keeps st → a.Keeps (f b st)) : a.Keeps (st.cruReport pick f) := by
  unfold Station.cruReport
  split
  · exact hf _ _ { h with }
  · exact h

theorem sluNotice {β : Type} {pick : SluMsg → Option β} {f : β → Station → Station}
    (hf : ∀ b st, a.Keeps st → a.Keeps (f b st)) : a.Keeps (st.sluNotice pick f) := by
  unfold Station.sluNotice
  split
  · exact hf _ _ { h with }
  · exact h

theorem sluReport {β : Type} {pick : SluMsg → Option β} {f : β → Station → Station}
    (hf : ∀ b st, a.Keeps st → a.Keeps (f b st)) : a.Keeps (st.sluReport pick f) := by
  unfold Station.sluReport
  split
  · exact hf _ _ { h with }
  · exact h

theorem stcRunOpenedNotice {f : RunHeader → Station → Station} (hf : ∀ b st, a.Keeps st → a.Keeps (f b st)) :
    a.Keeps (st.stcRunOpenedNotice f) := by
  unfold Station.stcRunOpenedNotice
  split
  · exact hf _ _ { h with }
  · exact h

theorem incRunOpenedNotice {f : Quad Bool → Station → Station} (hf : ∀ b st, a.Keeps st → a.Keeps (f b st)) :
    a.Keeps (st.incRunOpenedNotice f) := by
  unfold Station.incRunOpenedNotice
  split
  · exact hf _ _ { h with }
  · exact h

theorem cruRunOpenedNotice {f : Station → Station} (hf : ∀ st, a.Keeps st → a.Keeps (f st)) :
    a.Keeps (st.cruRunOpenedNotice f) := by
  unfold Station.cruRunOpenedNotice
  split
  · exact hf _ { h with }
  · exact h

theorem sluRunOpenedNotice {f : Station → Station} (hf : ∀ st, a.Keeps st → a.Keeps (f st)) :
    a.Keeps (st.sluRunOpenedNotice f) := by
  unfold Station.sluRunOpenedNotice
  split
  · exact hf _ { h with }
  · exact h

theorem takeBurstEnd {k : BurstKind} {f : BurstReport → Station → Station}
    (hf : ∀ r st, a.Keeps st → a.Keeps (f r st)) :
    a.Keeps (st.takeBurstEnd s k f) := by
  unfold Station.takeBurstEnd
  split
  · exact hf _ _ { h with }
  · exact h

/-! ### The outbound queue (R54 to R56) -/

/-- A frame other than ANNOUNCE, JOIN and STATE has its place at any time. -/
theorem placeFrame {r : Byte} {b : Body} (ha : inAnnouncePlace b = false) (hs : isState b = false) :
    a.Keeps (st.placeFrame r b) :=
  have hl : st.lkc.Keeps (st.placeFrame r b).lkc :=
    ⟨id, fun hl => hl.insert rfl (by simp [newEntry, ha]) (by simp [newEntry, hs]) (.inl rfl), id⟩
  { h with lkc := h.lkc.trans hl }

theorem placeBypass {c : OutCause} : a.Keeps (st.placeBypass s c) := h.placeFrame rfl rfl

theorem withdrawVerdict : a.Keeps (st.withdrawVerdict s) :=
  { h with lkc := h.lkc.trans ⟨id, fun hl => hl.of_bodies (bodies_filterMap (fun e d hd => by
      split at hd
      · split at hd
        · cases hd
        · cases hd; rfl
      · cases hd; rfl) _) rfl, id⟩ }

/-- A STATE is placed when there is none (R191). -/
theorem placeState (hn : ∀ e ∈ st.lkc.outbound, isState e.body = false) : a.Keeps st.placeState :=
  { h with lkc := h.lkc.trans ⟨id, fun hl => hl.insert (e := newEntry 0 (.state st.stateReport)) rfl (by simp [newEntry])
      (fun _ => hn) (.inl rfl), id⟩ }

end

/-- R55: a JOIN finds the announce place free, takes it from a JOIN that is not on the wire, or waits. -/
theorem outboundSound_placeJoin {r : Byte} {b : Body} (hb : isJoin b = true) (hl : st.lkc.OutboundSound) :
    (st.placeJoin r b).lkc.OutboundSound := by
  obtain ⟨mask, fp, js, rfl⟩ : ∃ mask fp js, b = .join mask fp js := by cases b <;> simp_all [isJoin]
  unfold Station.placeJoin
  split
  · rename_i hfind
    exact hl.insert (e := newEntry r (.join mask fp js)) rfl
      (fun _ x hx => by simpa using List.find?_eq_none.mp hfind x hx) (by simp [newEntry]) (.inl rfl)
  · split
    · obtain ⟨hu, ha, hs, hj⟩ := hl
      have same : ∀ p : Body → Bool, (∀ x : OutEntry, p (if inAnnouncePlace x.body then
          { newEntry r (.join mask fp js) with place := x.place } else x).body = p x.body) →
          ((st.lkc.outbound.map fun x => if inAnnouncePlace x.body then
            { newEntry r (.join mask fp js) with place := x.place } else x).filter fun e => p e.body).length ≤
          (st.lkc.outbound.filter fun e => p e.body).length := fun p hp => by
        simp [List.filter_map, Function.comp_def, hp]
      have kinds : ∀ x : OutEntry, inAnnouncePlace x.body = true → urgentBody x.body = false ∧ isState x.body = false :=
        fun x hx => by cases hxb : x.body <;> simp_all
      refine ⟨List.pairwise_map.mpr (hu.imp fun {x y} hxy hy => ?_), (same _ fun x => ?_).trans ha,
        (same _ fun x => ?_).trans hs, hj⟩
      · cases hx : inAnnouncePlace x.body <;> cases hy' : inAnnouncePlace y.body <;> simp_all [newEntry]
      · cases hx : inAnnouncePlace x.body <;> simp [hx, newEntry]
      · cases hx : inAnnouncePlace x.body <;> simp [hx, newEntry, kinds]
    · obtain ⟨hu, ha, hs, -⟩ := hl
      exact ⟨hu, ha, hs, fun e he => by cases he; rfl⟩

section
variable (h : a.Keeps st)
include h

theorem placeJoin {r : Byte} {b : Body} (hb : isJoin b = true) : a.Keeps (st.placeJoin r b) := by
  have hother : st.placeJoin r b = { st with lkc := { st.lkc with
      outbound := (st.placeJoin r b).lkc.outbound, deferredJoin := (st.placeJoin r b).lkc.deferredJoin } } := by
    unfold Station.placeJoin
    split
    · rfl
    · split <;> rfl
  rw [hother]
  exact { h with lkc := h.lkc.trans ⟨id, fun hl => outboundSound_placeJoin (r := r) hb hl, id⟩ }

/-! ### FLT, windows, shunts and bursts -/

theorem assertFlt {c : OwnFault} : a.Keeps (st.assertFlt c) := by
  unfold Station.assertFlt
  split
  · exact h
  · exact { h with lkc := h.lkc.trans ⟨id, id, id⟩, rpu := h.rpu.trans ⟨id, id⟩ }

/-- A station that is not in LISTEN mutes. -/
theorem enterMute {c : OwnFault} (hl : st.lkc.link = .active) : a.Keeps (st.enterMute c) := by
  rw [enterMute_active hl]
  exact { h with
    lkc := h.lkc.trans (.of_less le_rfl (fun ⟨hm, hk, hf, _⟩ => ⟨hm, hk, hf, by simp [hl]⟩) id le_rfl)
    rpu := h.rpu.trans ⟨id, id⟩ }

theorem openWindow : a.Keeps (st.openWindow s) := h.modGcu
theorem voidWindow : a.Keeps (st.voidWindow s) := h.modGcu

theorem closeShunt : a.Keeps (st.closeShunt s) := by
  rw [closeShunt_eq]
  exact h.modInc (IncSocket.keeps_shut _)

theorem keepLateEnd : a.Keeps (st.keepLateEnd s) := { h with }

theorem endJoinLate : a.Keeps (st.endJoinLate s) := by
  have marked : ∀ (c : JoinFault) (i : IncSocket), i.Keeps (lateFault .late { i with join := .none, joinFault := c }) :=
    fun c i => .trans (j := { i with join := .none, joinFault := c }) ⟨id, id, id, id⟩ (IncSocket.keeps_lateFault _ _)
  exact h.keepLateEnd.closeShunt.modInc (marked _ _)

/-- R157: a burst asked for gets the next number. -/
theorem requestBurst {k : BurstKind} {o : Order} {os : List Order} : a.Keeps (st.requestBurst s k o os) :=
  { h with seals := fun ha x b hx => ⟨(h.seals ha x b hx).1.trans (Nat.lt_succ_self _), (h.seals ha x b hx).2⟩ }

/-! ### The Report Unit (R191, R195) -/

theorem answerQuery : a.Keeps st.answerQuery := by
  unfold Station.answerQuery
  split
  · split
    · exact { h with rpu := h.rpu.trans ⟨id, id⟩ }
    · exact h
  · rename_i hn
    split
    · exact h
    · exact h.placeState fun e he => by simpa using List.find?_eq_none.mp hn e he

theorem queryNotice : a.Keeps st.queryNotice := by
  unfold Station.queryNotice
  split
  · exact h
  · refine answerQuery ?_
    exact { h with rpu := h.rpu.trans ⟨id, id⟩ }

theorem dropPendingQuery : a.Keeps st.dropPendingQuery := { h with rpu := h.rpu.trans ⟨id, id⟩ }

theorem lampTimer : a.Keeps st.lampTimer := { h with rpu := h.rpu.trans ⟨id, id⟩ }

end

end Station.Keeps

end Sys2Proof.Machine
end

section
/-! PROOFS. The laws of the station through every command of the Link Controller (R37 to R60): no command but the end of a clean
slot brings a frame, and that one finds room (R46, R47). -/

namespace Sys2Proof.Machine

/-! ### The medium (R37) -/

namespace Lkc.Keeps

/-- With no frame in hand no slot calls for room. -/
theorem freed (l : Lkc) {m : Lkc} (hm : m.medium ≠ .objection)
    (hi : m.inbound = l.inbound) (ho : (m.outbound.map OutEntry.body).Sublist (l.outbound.map OutEntry.body))
    (hd : m.deferredJoin = l.deferredJoin) (hc : m.objections ≤ l.objections) : l.Keeps m :=
  .of_less (hi ▸ le_rfl) (fun h => absurd h.1 hm) (fun h => h.of_bodies ho hd) hc

theorem freeMedium (l : Lkc) : l.Keeps (Station.freeMedium l) :=
  .freed l (by simp [Station.freeMedium]) rfl (.refl _) rfl le_rfl

end Lkc.Keeps

theorem bodies_takeCandidate (q : List OutEntry) : (Station.takeCandidate q).map OutEntry.body = q.map OutEntry.body := by
  cases q <;> rfl

theorem bodies_putOnWire (l : Lkc) : (Station.putOnWire l).outbound.map OutEntry.body = l.outbound.map OutEntry.body :=
  bodies_map (fun e => by split <;> rfl) _

theorem objections_putOnWire_le (l : Lkc) : (Station.putOnWire l).objections ≤ l.objections := by
  unfold Station.putOnWire
  dsimp only
  split
  · exact le_rfl
  · exact Nat.zero_le _

namespace Station

variable {a st : Station}

/-! ### The objection slot (R47 to R51) -/

theorem ownOutcome_cases (clean : Bool) : st.ownOutcome clean = st ∨
    (∃ e, st.entryAt .onWire = some e ∧ st.ownOutcome clean = st.publish) ∨ st.ownOutcome clean = st.countObjection := by
  unfold ownOutcome
  split
  · exact .inl rfl
  · rename_i e he
    split
    · exact .inr (.inl ⟨e, he, rfl⟩)
    · exact .inr (.inr rfl)

/-- R47, R55, R191: what waited for the published entry finds its place free. -/
theorem outboundSound_publish {e : OutEntry} (he : st.entryAt .onWire = some e) (h : st.lkc.OutboundSound) :
    st.publish.lkc.OutboundSound := by
  obtain ⟨hmem, hwire⟩ := find_place he
  have hpub : st.published.lkc.OutboundSound := h.of_bodies (List.filter_sublist.map _) rfl
  obtain ⟨-, hannounce, hstate, hjoin⟩ := h
  cases ha : inAnnouncePlace e.body with
  | true =>
    rw [publish_announcePlace he ha]
    cases hd : st.lkc.deferredJoin with
    | none => rwa [placeDeferredJoin_none (st := st.published) hd]
    | some d =>
      have hnone := Lkc.none_left hannounce hmem hwire ha
      have hs : isState d.body = false := by
        have := hjoin d hd
        cases hb : d.body <;> simp_all [isJoin]
      unfold placeDeferredJoin
      simp only [published, hd]
      exact hpub.insert rfl (fun _ => hnone) (by simp [hs]) (.inr rfl)
  | false =>
    cases hs : isState e.body with
    | false => rwa [publish_plain he ha hs]
    | true =>
      rw [publish_state he hs]
      have hnone := Lkc.none_left hstate hmem hwire hs
      unfold settlePendingQuery
      split
      · exact hpub.insert (e := newEntry 0 (.state st.published.dropPendingQuery.stateReport)) rfl (by simp [newEntry])
          (fun _ => hnone) (.inl rfl)
      · exact hpub

@[simp] theorem enterMute_inbound (c : OwnFault) : (st.enterMute c).lkc.inbound = st.lkc.inbound := by
  unfold enterMute assertFlt
  split <;> rfl

/-- Of the inbound queue the sender's own part of the slot changes nothing. -/
theorem ownOutcome_inbound (clean : Bool) : (st.ownOutcome clean).lkc.inbound = st.lkc.inbound := by
  rcases ownOutcome_cases (st := st) clean with h | ⟨e, he, h⟩ | h <;> rw [h]
  · rw [publish_changes he]
  · unfold countObjection
    dsimp only
    split
    · rw [enterMute_inbound]
      split <;> rfl
    · split <;> rfl

theorem duplicateCheck_inbound (f : Frame) (own : Bool) : (st.duplicateCheck f own).lkc.inbound = st.lkc.inbound := by
  unfold duplicateCheck
  split
  · split
    · exact enterMute_inbound _
    · unfold assertFlt
      split <;> rfl
  · rfl

namespace Keeps

section
variable (h : a.Keeps st)
include h

theorem publish {e : OutEntry} (he : st.entryAt .onWire = some e) : a.Keeps st.publish := by
  rw [publish_changes he]
  exact { h with
    lkc := h.lkc.trans (.of_less le_rfl id (fun hl => outboundSound_publish he hl) (Nat.zero_le _))
    rpu := h.rpu.trans ⟨id, id⟩ }

theorem countObjection : a.Keeps st.countObjection := by
  have counted : a.Keeps { st with
      lkc := { st.lkc with
        objections := satSucc Config.objectionLimit st.lkc.objections, outbound := st.lkc.outbound.filterMap keepObjected }
      rpu := { st.rpu with objectionTotal := satSucc Config.counterMax st.rpu.objectionTotal } } :=
    { h with
      lkc := h.lkc.trans ⟨id, fun hl => hl.of_bodies (bodies_keepObjected _) rfl, satSucc_le⟩
      rpu := h.rpu.trans ⟨satSucc_le, id⟩ }
  unfold Station.countObjection
  dsimp only
  split
  · rename_i hmute
    refine enterMute ?_ ?_
    · split
      · exact counted.dropPendingQuery
      · exact counted
    · split <;> exact hmute.2
  · split
    · exact counted.dropPendingQuery
    · exact counted

theorem ownOutcome {clean : Bool} : a.Keeps (st.ownOutcome clean) := by
  rcases ownOutcome_cases (st := st) clean with hc | ⟨e, he, hc⟩ | hc <;> rw [hc]
  · exact h
  · exact h.publish he
  · exact h.countObjection

theorem alignRotating {ordinary : Bool} {f : Frame} : a.Keeps (st.modLkc (alignRotating ordinary f)) := by
  rw [modLkc_alignRotating]
  exact { h with lkc := h.lkc.trans ⟨id, id, id⟩ }

theorem duplicateCheck {f : Frame} {own : Bool} : a.Keeps (st.duplicateCheck f own) := by
  unfold Station.duplicateCheck
  split
  · split
    · exact h.enterMute ‹_›
    · exact h.assertFlt
  · exact h

end

/-- R46, R47: the frame of a clean slot has room, and with the slot's end no further frame may come. -/
theorem received {f : Frame} {own : Bool} {v : Station} (ha : st.lkc.AwaitsFrame) (h : (st.received f own).Keeps v)
    (hin : v.lkc.inbound = (st.received f own).lkc.inbound) : st.Keeps (v.modLkc freeMedium) where
  lkc :=
    { inbound := fun hs => by
        have room := (Lkc.inboundSound_iff.mp hs).2 ha
        refine Lkc.inboundSound_iff.mpr ⟨?_, fun hm => nomatch hm.1⟩
        show frameFill v.lkc.inbound ≤ _
        rw [hin, Station.received, frameFill_append]
        exact room
      outbound := fun hs => (Lkc.Keeps.freeMedium v.lkc).outbound (h.lkc.outbound hs)
      objections := h.lkc.objections }
  rpu := h.rpu
  inc := h.inc
  port := h.port
  seals := h.seals

theorem objectionSlotEnd (marked : Bool) : st.Keeps (st.objectionSlotEnd marked) := by
  by_cases hm : st.lkc.medium = .objection
  · by_cases hl : st.lkc.link = .listen
    · rw [objectionSlotEnd_listen_changes hm hl]
      exact { refl st with lkc := .freed _ (by simp) rfl (.refl _) rfl le_rfl }
    · by_cases hk : marked = true ∨ st.lkc.mark = true
      · rw [objectionSlotEnd_objected hm hl hk]
        exact (refl st).ownOutcome.modLkc (.freeMedium _)
      · obtain ⟨rfl, hmark⟩ : marked = false ∧ st.lkc.mark = false := by simpa using hk
        cases hf : st.lkc.followed with
        | none =>
          have hslot : st.objectionSlotEnd false = (st.ownOutcome true).modLkc freeMedium := by
            simp [Station.objectionSlotEnd, cleanSlot, hm, hl, hmark, hf]
          rw [hslot]
          exact (refl st).ownOutcome.modLkc (.freeMedium _)
        | some f =>
          rw [objectionSlotEnd_clean hm hl hmark hf, ← modLkc_alignRotating]
          refine received ⟨hm, hmark, by simp [hf], hl⟩ (refl _).ownOutcome.alignRotating.duplicateCheck ?_
          rw [duplicateCheck_inbound, modLkc_alignRotating]
          exact ownOutcome_inbound true
  · rw [Station.objectionSlotEnd, if_neg hm]
    exact refl st

/-! ### Rounds and frames (R37 to R49) -/

section
variable (h : a.Keeps st)
include h

theorem idleInterval : a.Keeps st.idleInterval := by
  unfold Station.idleInterval
  split
  · exact h.modLkc (.freed _ (by simp [freeMedium]) rfl (.refl _) rfl le_rfl)
  · exact h

theorem roundStart : a.Keeps st.roundStart := by
  unfold Station.roundStart
  split
  · refine h.modLkc (.freed _ (by simp) rfl ?_ rfl le_rfl)
    dsimp only
    split
    · rw [bodies_takeCandidate]
    · exact .refl _
  · exact h

theorem roundWon {w : Node} {o : Bool} : a.Keeps (st.roundWon w o) := by
  refine h.modLkc ?_
  dsimp only
  split
  · exact .freed _ (by simp [putOnWire]) rfl (by rw [bodies_putOnWire]; exact .refl _) rfl (objections_putOnWire_le _)
  · exact .freed _ (by simp) rfl (bodies_returnEntries _ _) rfl le_rfl

theorem holdSlotEnd {u o : W32} {hold : Bool} : a.Keeps (st.holdSlotEnd u o hold) := by
  unfold Station.holdSlotEnd
  split
  · split
    · exact h.roundWon
    · exact (h.modLkc ⟨id, id, id⟩).roundWon
    · exact h.modLkc (.freed _ (by simp) rfl (bodies_returnEntries _ _) rfl le_rfl)
    · exact h.modLkc (.freed _ (by simp [freeMedium]) rfl (bodies_returnEntries _ _) rfl le_rfl)
  · exact h

theorem frameStartLimit : a.Keeps st.frameStartLimit := by
  unfold Station.frameStartLimit
  split
  · exact h.modLkc (.freed _ (by simp [freeMedium]) rfl (bodies_returnEntries _ _) rfl le_rfl)
  · exact h

theorem holdWaitEnd : a.Keeps st.holdWaitEnd := by
  unfold Station.holdWaitEnd
  split
  · exact h.modLkc (.freed _ (by simp) rfl (.refl _) rfl le_rfl)
  · exact h

/-- R46 check 4: a frame that finds no room is marked. -/
theorem endFrame {f : Option Frame} : a.Keeps (st.endFrame f) := by
  refine { h with lkc := h.lkc.trans ⟨fun hi => ?_, id, id⟩ }
  refine Lkc.inboundSound_iff.mpr ⟨hi.1, fun ⟨_, hmark, hf, hl⟩ => ?_⟩
  obtain ⟨x, rfl⟩ := Option.ne_none_iff_exists'.mp hf
  have hlink : st.lkc.link ≠ .listen := hl
  have hjudged : (st.lkc.link != .listen && st.rejects x) = false := hmark
  rw [bne_iff_ne.mpr hlink, Bool.true_and] at hjudged
  rw [rejects, Bool.or_eq_false_iff, decide_eq_false_iff_not, not_le] at hjudged
  exact hjudged.1

theorem frameEnd {bytes : List Byte} : a.Keeps (st.frameEnd bytes) := by
  unfold Station.frameEnd
  split
  · exact h.endFrame
  · exact h

theorem earlyEnd : a.Keeps st.earlyEnd := by
  unfold Station.earlyEnd
  split
  · exact h.endFrame
  · exact h

theorem framingViolation {v : Violation} : a.Keeps (st.framingViolation v) := by
  unfold Station.framingViolation
  split
  · exact h.modLkc ⟨id, id, id⟩
  · exact h

theorem readbackFailure : a.Keeps st.readbackFailure := by
  unfold Station.readbackFailure
  split
  · exact h.modLkc ⟨id, id, id⟩
  · exact h

/-! ### Link reset and bench fault (R53, R57 to R60) -/

theorem voidFrame : a.Keeps st.voidFrame := by
  have back : a.Keeps (st.modLkc fun l => { l with outbound := returnEntries .onWire l.outbound }) :=
    h.modLkc ⟨id, fun hl => hl.of_bodies (bodies_returnEntries _ _) rfl, id⟩
  unfold Station.voidFrame
  dsimp only
  split
  · exact back.dropPendingQuery
  · exact back

theorem mark {m : Entry} (hm : m.isMarker = true) : a.Keeps (st.mark m) := by
  refine h.modLkc ?_
  split
  · exact .refl _
  · exact .of_less (frameFill_placeMarker hm _).le id id le_rfl

theorem resetLink : a.Keeps st.resetLink := by
  refine mark ?_ rfl
  exact h.voidFrame.modLkc (.freed _ (by simp) rfl (bodies_returnEntries _ _) rfl (Nat.zero_le _))

theorem lrstRising : a.Keeps st.lrstRising := by
  unfold Station.lrstRising
  split
  · have risen : a.Keeps (st.modLkc fun l => { l with lrst := true }) := h.modLkc ⟨id, id, id⟩
    dsimp only
    split
    · exact risen.resetLink
    · exact risen
  · exact h

theorem lrstReleased : a.Keeps st.lrstReleased := by
  unfold Station.lrstReleased
  split
  · refine h.modLkc ?_
    dsimp only
    split
    · exact .freed _ (by simp [freeMedium]) rfl (.refl _) rfl le_rfl
    · exact ⟨id, id, id⟩
  · exact h

theorem ownLrstEnd : a.Keeps st.ownLrstEnd := h.modLkc ⟨id, id, id⟩

theorem faultFrame : a.Keeps st.faultFrame := by
  unfold Station.faultFrame
  split
  · exact h.voidFrame.modLkc (.freeMedium _)
  · exact h

theorem fltRising : a.Keeps st.fltRising := by
  unfold Station.fltRising
  split
  · have risen : a.Keeps (st.modLkc fun l => { l with flt := true }) := h.modLkc ⟨id, id, id⟩
    dsimp only
    split
    · exact risen.faultFrame.mark rfl
    · exact risen
  · exact h

theorem fltReleased : a.Keeps st.fltReleased := by
  unfold Station.fltReleased
  split
  · exact h.modLkc ⟨id, id, id⟩
  · exact h

theorem ownFltEnd : a.Keeps st.ownFltEnd := by
  unfold Station.ownFltEnd
  split
  · exact h.modLkc ⟨id, id, id⟩
  · exact h

theorem mirrorCheckNotice : a.Keeps st.mirrorCheckNotice := by
  unfold Station.mirrorCheckNotice
  split
  · exact h
  · exact (h.modLkc ⟨id, id, id⟩).assertFlt

end

end Keeps

end Station

end Sys2Proof.Machine
end

section
/-! PROOFS. The laws of the station through every command of the Bench Mirror, the Gate Counter Unit, the Correction Unit, the
Meter Port Controller and the Seal Unit. -/

namespace Sys2Proof.Machine

namespace Station

/-- R167 to R169, R171: the number is held with its record, and the SEAL burst is asked for. -/
theorem takeNumber_eq (st : Station) (x : Socket) (n : Nat) : st.takeNumber x n = { st with
    stc := { st.stc with ctx := st.stc.ctx.set x { st.ctx x with run := .sealing } }
    slu := { st.slu with sockets := st.slu.sockets.set x (st.sealBegun x n) }
    mpc := st.burstAsked x .seal (.writeSeal (st.recordFields x n)) [.lock, .readSeal] } := rfl

theorem sluSocket_takeNumber (st : Station) (x y : Socket) (n : Nat) :
    (st.takeNumber x n).sluSocket y = if y = x then st.sealBegun x n else st.sluSocket y := Quad.get_set _ _ _ _

end Station

namespace Station.Keeps

variable {a st : Station} {s : Socket}

section
variable (h : a.Keeps st)
include h

/-! ### The Bench Mirror (R2, R15, R34): an entry taken leaves its room -/

theorem give {n : Notice} : a.Keeps (st.give n) := by
  cases n
  case runOpened => exact h.tellAll.tellStc.tellGcu.tellInc.tellCru.tellSlu
  case ended => exact h.tellAll.tellStc.tellInc.tellSlu
  case mirrorCheck => exact { h with lkc := h.lkc.trans ⟨id, id, id⟩ }
  case query => exact { h with rpu := h.rpu.trans ⟨id, id⟩ }
  case ignoredRunFrame => exact { h with rpu := h.rpu.trans ⟨id, satSucc_le⟩ }
  all_goals exact { h with }

theorem giveAll {ns : List Notice} : a.Keeps (st.giveAll ns) := by
  induction ns generalizing st with
  | nil => exact h
  | cons n ns ih => exact ih h.give

theorem finishTake {rest : List Entry} {m : Mirror} {before after : List Notice}
    (hr : frameFill rest ≤ frameFill st.lkc.inbound) : a.Keeps (st.finishTake rest m before after) := by
  refine giveAll ?_
  exact { h with lkc := h.lkc.trans (.of_less hr id id le_rfl) }

theorem takeRunFrame {rest : List Entry} {run : Byte} {fx : Mirror → Option (Mirror × List Notice)}
    (hr : frameFill rest ≤ frameFill st.lkc.inbound) : a.Keeps (st.takeRunFrame rest run fx) := by
  unfold Station.takeRunFrame
  split
  · split <;> exact h.finishTake hr
  · exact h.finishTake hr

theorem takeHead {β : Type} {pick : Body → Option β} {f : Frame → Bool → β → List Entry → Station}
    (hf : ∀ fr own b rest, frameFill rest ≤ frameFill st.lkc.inbound → a.Keeps (f fr own b rest)) :
    a.Keeps (st.takeHead pick f) := by
  unfold Station.takeHead
  split
  · rename_i hin
    split
    · exact hf _ _ _ _ (hin ▸ frameFill_tail_le _ _)
    · exact h
  · exact h

theorem takeRunOpen : a.Keeps st.takeRunOpen := h.takeHead fun fr _ ⟨sl, fp, f, c⟩ rest hr => by
  dsimp only
  split
  · exact h.finishTake hr
  · split
    · exact h
    · exact h.finishTake hr

theorem takeJoin : a.Keeps st.takeJoin := h.takeHead fun fr own ⟨mask, fp, js⟩ rest hr => by
  dsimp only
  split
  · split <;> exact h.finishTake hr
  · exact h.finishTake hr

theorem takeLoadSet : a.Keeps st.takeLoadSet := h.takeHead fun _ _ _ _ => h.takeRunFrame
theorem takeVerdict : a.Keeps st.takeVerdict := h.takeHead fun _ _ _ _ => h.takeRunFrame
theorem takeBypass : a.Keeps st.takeBypass := h.takeHead fun _ _ _ _ => h.takeRunFrame
theorem takeShed : a.Keeps st.takeShed := h.takeHead fun _ _ _ _ => h.takeRunFrame
theorem takePause : a.Keeps st.takePause := h.takeHead fun _ _ _ _ => h.takeRunFrame
theorem takeResume : a.Keeps st.takeResume := h.takeHead fun _ _ _ _ => h.takeRunFrame
theorem takeRunAbort : a.Keeps st.takeRunAbort := h.takeHead fun _ _ _ _ => h.takeRunFrame
theorem takeSealDone : a.Keeps st.takeSealDone := h.takeHead fun _ _ _ _ => h.takeRunFrame
theorem takeSealSpoil : a.Keeps st.takeSealSpoil := h.takeHead fun _ _ _ _ => h.takeRunFrame
theorem takeAnnounce : a.Keeps st.takeAnnounce := h.takeHead fun _ _ _ _ => h.finishTake
theorem takeQuery : a.Keeps st.takeQuery := h.takeHead fun _ _ _ _ => h.finishTake
theorem takeState : a.Keeps st.takeState := h.takeHead fun _ _ _ _ => h.finishTake

theorem takePoolExtend : a.Keeps st.takePoolExtend := h.takeHead fun fr _ ⟨f, c⟩ rest hr => by
  dsimp only
  split
  · split <;> exact h.finishTake hr
  · exact h.finishTake hr

theorem takeSealClaim : a.Keeps st.takeSealClaim := h.takeHead fun fr own b rest hr => by
  dsimp only
  split
  · split <;> exact h.finishTake hr
  · exact h.finishTake hr

theorem takeBenchFault : a.Keeps st.takeBenchFault := by
  unfold Station.takeBenchFault
  split
  · rename_i hin
    split <;> exact h.finishTake (hin ▸ frameFill_tail_le _ _)
  · exact h

theorem takeLinkReset : a.Keeps st.takeLinkReset := by
  unfold Station.takeLinkReset
  split
  · rename_i hin
    exact h.finishTake (hin ▸ frameFill_tail_le _ _)
  · exact h

/-! ### The Gate Counter Unit: windows and masks are no part of the laws -/

theorem refPulse : a.Keeps st.refPulse := { h with }

theorem endAccuracy {o : Bool} {l : List Sample} : a.Keeps (st.endAccuracy s o l) := h.modGcu.tellStc

theorem endTimed {v : Verdict} {n : Nat} : a.Keeps (st.endTimed s v n) := h.modGcu.tellStc

theorem gatePulse {p : GateParams} {g : OpenGate} {n : Nat} : a.Keeps (st.gatePulse s p g n) := by
  unfold Station.gatePulse
  split
  · exact h.modGcu
  · dsimp only
    split
    · exact h.modGcu
    · exact h.endAccuracy

theorem pulseAt : a.Keeps (st.pulseAt s) := by
  unfold Station.pulseAt
  split
  · exact h
  · exact h.modGcu
  · exact h.gatePulse
  · split
    · exact h.modGcu
    · exact h.endTimed
  · exact h.endTimed

theorem meterPulse {p : Position} : a.Keeps (st.meterPulse p) := by
  unfold Station.meterPulse
  split
  · split
    · exact h.pulseAt
    · exact h
  · exact h

theorem gateTimeout : a.Keeps (st.gateTimeout s) := by
  unfold Station.gateTimeout
  split
  · dsimp only
    split
    · exact h.endAccuracy
    · exact h
  · exact h

theorem creepTimer : a.Keeps (st.creepTimer s) := by
  unfold Station.creepTimer
  split
  · exact h.endTimed
  · exact h

theorem startTimer : a.Keeps (st.startTimer s) := by
  unfold Station.startTimer
  split
  · exact h.endTimed
  · exact h

theorem writeBurstEnd : a.Keeps (st.writeBurstEnd s) := by
  unfold Station.writeBurstEnd
  split
  · refine modGcu ?_
    exact { h with }
  · exact h

theorem pulseMaskEnd : a.Keeps (st.pulseMaskEnd s) := by
  unfold Station.pulseMaskEnd
  split
  · exact h.modGcu.tellStc
  · exact h

theorem gcuRunOpened : a.Keeps st.gcuRunOpened := by
  unfold Station.gcuRunOpened
  split
  · exact { h with }
  · exact h

/-! ### The Correction Unit -/

theorem setRequest {r : CruRequest} : a.Keeps (st.setRequest s r) := h.modCru

theorem modTable {f : Quad ChannelRec → Quad ChannelRec} : a.Keeps (st.modTable s f) := h.modCru

theorem buildPreset {n : Nat} {t : Quad ChannelRec} : a.Keeps (st.buildPreset s n t) := by
  unfold Station.buildPreset
  split
  · exact h.tellInc
  · split
    · exact h.tellInc
    · exact h.setRequest.requestBurst

theorem presetRequest : a.Keeps (st.presetRequest s) := h.cruReport fun _ _ h => by
  split
  · exact h.buildPreset
  · exact h.tellInc

theorem presetBurstEnd : a.Keeps (st.presetBurstEnd s) := h.takeBurstEnd fun _ _ h => by
  split
  · split
    · exact h.modTable.setRequest.tellInc
    · exact h
  · exact h

theorem correct {c : Channel} {mean : Int} {r : ChannelRec} : a.Keeps (st.correct s c mean r) := by
  unfold Station.correct
  split
  · exact h.tellStc
  · dsimp only
    split
    · exact h.setRequest.requestBurst
    · exact h.tellStc

theorem correctionRequest : a.Keeps (st.correctionRequest s) := h.cruReport fun ⟨_, _⟩ _ h => by
  dsimp only
  split
  · exact h.correct
  · exact h.tellStc

theorem takeAdjust {c : Channel} {v : Int} {rs : List ExchangeRecord} : a.Keeps (st.takeAdjust s c v rs) := by
  unfold Station.takeAdjust
  split
  · exact h.modTable.setRequest.tellStc
  · exact h

theorem adjustBurstEnd : a.Keeps (st.adjustBurstEnd s) := h.takeBurstEnd fun _ _ h => by
  split
  · split
    · exact h.takeAdjust
    · exact h
  · exact h

theorem verificationRequest : a.Keeps (st.verificationRequest s) := h.cruReport fun _ _ h => by
  split
  · exact h.tellSlu
  · exact h.setRequest.requestBurst

theorem reportVerification {ok : Bool} : a.Keeps (st.reportVerification s ok) := by
  unfold Station.reportVerification
  dsimp only
  split
  · exact h.tellSlu.tellInc
  · exact h.tellSlu

theorem verifyBurstEnd : a.Keeps (st.verifyBurstEnd s) := h.takeBurstEnd fun _ _ h => by
  split
  · split
    · exact h.modTable.setRequest.reportVerification
    · exact h
  · exact h

theorem closeRequest : a.Keeps (st.closeRequest s) := by
  unfold Station.closeRequest
  dsimp only
  split
  · exact h.tellMpc.modCru
  · exact h.modCru

theorem cruRunOpened : a.Keeps st.cruRunOpened := h.cruRunOpenedNotice fun _ h => h.each fun _ _ h => h.closeRequest

/-! ### The Meter Port Controller (R155, R157, R160): a burst that ends gives its place to the one behind it -/

theorem reportBurst {r : BurstReport} : a.Keeps (st.reportBurst s r) := by
  unfold Station.reportBurst
  split
  · exact h.tellInc
  · exact h.tellCru
  · exact h.tellCru
  · exact h.tellCru
  · exact h.tellSlu

theorem reportWrite {k : BurstKind} : a.Keeps (st.reportWrite s k) := by
  unfold Station.reportWrite
  split
  · exact h.tellGcu
  · exact h

theorem endExchange {x : Running} {o : Result} {r : Option Reply} : a.Keeps (st.endExchange s x o r) := by
  unfold Station.endExchange
  dsimp only
  split
  · exact h.modPort fun _ hr => nomatch hr
  · exact h.reportBurst.reportWrite.modPort fun _ _ => rfl

theorem burstRequest {k : BurstKind} : a.Keeps (st.burstRequest s k) := by
  unfold Station.burstRequest
  split
  · split
    · exact h
    · refine modPort (by exact { h with }) fun hp => ?_
      unfold acceptBurst
      split
      · exact fun hr => nomatch hr
      · rename_i hrun
        exact fun hr => by simp [hrun] at hr
  · exact h

theorem burstWithdrawal : a.Keeps (st.burstWithdrawal s) := by
  unfold Station.burstWithdrawal
  split
  · split
    · refine modPort (by exact { h with }) fun hp => ?_
      unfold withdrawn
      split
      · split
        · exact fun _ => rfl
        · exact hp
      · exact hp
    · exact h
  · exact h

theorem orderSent : a.Keeps (st.orderSent s) := by
  unfold Station.orderSent
  split
  · split
    · exact h.modPort fun _ hr => nomatch hr
    · exact h
  · exact h

theorem replyReceived {bytes : List RxByte} : a.Keeps (st.replyReceived s bytes) := by
  unfold Station.replyReceived
  split
  · exact h
  · split
    · split
      · exact h.endExchange
      · exact h.modPort fun _ hr => nomatch hr
    · exact h

theorem replyTimerExpiry : a.Keeps (st.replyTimerExpiry s) := by
  unfold Station.replyTimerExpiry
  split
  · exact h
  · split
    · exact h.endExchange
    · exact h.endExchange
    · exact h

theorem lineRestEnd : a.Keeps (st.lineRestEnd s) := by
  unfold Station.lineRestEnd
  split
  · exact h.modPort fun hp hr => hp (Option.map_eq_none_iff.mp hr)
  · exact h

/-! ### The Seal Unit (R164 to R176) -/

theorem setRun {r : RunState} : a.Keeps (st.setRun s r) := h.modCtx

theorem outByRoster : a.Keeps (st.outByRoster s) := h.modCtx

theorem claim : a.Keeps (st.claim s) := (h.placeFrame rfl rfl).setRun

theorem takeHandOver : a.Keeps (st.takeHandOver s) := by
  unfold Station.takeHandOver
  split
  · exact h
  · split
    · exact h.outByRoster
    · split
      · exact (h.modSlu (by nofun)).setRun.tellCru
      · exact h.claim

theorem handOver : a.Keeps st.handOver := h.sluReport fun _ _ h => h.takeHandOver

theorem takeVerification {ok : Bool} {p : Phase} : a.Keeps (st.takeVerification s ok p) := by
  have done : a.Keeps (st.modSlu s fun x => { x with request := .none }) := h.modSlu (by nofun)
  unfold Station.takeVerification
  dsimp only
  split
  · split
    · exact done.claim
    · exact done.modCtx
  · exact done.outByRoster

theorem verificationOutcome : a.Keeps (st.verificationOutcome s) := h.sluReport fun ⟨_, _⟩ _ h => by
  dsimp only
  split
  · exact h.takeVerification
  · exact h

/-- R171: the number of the SEAL burst asked for is new, and no later one is given again. -/
theorem takeNumber {n : Nat} : a.Keeps (st.takeNumber s n) := by
  refine { h with seals := fun ha x b hx => ?_ }
  have hs := h.seals ha
  have next : (st.takeNumber s n).mpc.nextBurst = st.mpc.nextBurst + 1 := rfl
  have given : ∀ y, (st.sluSocket y).request ≠ .seal st.mpc.nextBurst := fun y hy => lt_irrefl _ (hs y _ hy).1
  rw [sluSocket_takeNumber] at hx
  simp only [sluSocket_takeNumber, next]
  by_cases hxs : x = s
  · rw [if_pos hxs] at hx
    cases hx
    refine ⟨Nat.lt_succ_self _, fun y hy => ?_⟩
    rw [if_neg (hxs ▸ hy)]
    exact given y
  · rw [if_neg hxs] at hx
    refine ⟨(hs x b hx).1.trans (Nat.lt_succ_self _), fun y hy => ?_⟩
    split
    · rintro ⟨⟩
      exact given x hx
    · exact (hs x b hx).2 y hy

theorem takeOwnClaim {r : ClaimResult} : a.Keeps (st.takeOwnClaim s r) := by
  cases r with
  | assigned n => exact h.takeNumber
  | waiting => exact h.setRun
  | refused => exact h.modCtx

theorem ownClaimNotice : a.Keeps st.ownClaimNotice := h.sluNotice fun ⟨_, _⟩ _ h => by
  dsimp only
  split
  · exact h.takeOwnClaim
  · exact h

theorem assignmentNotice : a.Keeps st.assignmentNotice := h.sluNotice fun ⟨_, _⟩ _ h => by
  dsimp only
  split
  · exact h.takeNumber
  · exact h

theorem placeDone {f : SealFields} : a.Keeps (st.placeDone s f) :=
  ((h.modSlu (by nofun)).placeFrame rfl rfl).setRun

theorem placeSpoil {f : SealFields} {c : SpoilCause} : a.Keeps (st.placeSpoil s f c) :=
  ((h.modSlu (by nofun)).placeFrame rfl rfl).modCtx

theorem takeSealEnd {r : BurstReport} : a.Keeps (st.takeSealEnd s r) := by
  unfold Station.takeSealEnd
  split
  · split
    · split
      · exact h.placeDone
      · exact h.placeSpoil
    · exact h
  · exact h

theorem sealBurstEnd : a.Keeps (st.sealBurstEnd s) := h.sluReport fun _ _ h => h.takeSealEnd

theorem dropBurst {b : Nat} : a.Keeps (st.dropBurst s b) := by
  unfold Station.dropBurst
  refine modPort (st := { st with mpc := { st.mpc with inbox := st.mpc.inbox.filter fun m => !asksBurst b m } })
    { h with } fun hp => ?_
  dsimp only
  split
  · split
    · exact fun _ => rfl
    · exact hp
  · exact hp

theorem endSealing {e : EndCause} : a.Keeps (st.endSealing s e) := by
  unfold Station.endSealing
  split
  · split
    · exact h.dropBurst.placeSpoil
    · exact h
  · exact h

theorem endSealSocket {e : EndCause} : a.Keeps (st.endSealSocket e s) := by
  unfold Station.endSealSocket
  split
  · exact h.outByRoster
  · exact h.endSealing
  · exact h

theorem sluRunEnded : a.Keeps st.sluRunEnded := h.sluNotice fun _ _ h => h.each fun _ _ h => h.endSealSocket

theorem sluRunOpened : a.Keeps st.sluRunOpened := h.sluRunOpenedNotice fun u h => by
  refine { h with seals := fun _ x b hx => ?_ }
  have blank : (SluSocket.reset).request = .seal b := by simpa [sluSocket] using hx
  exact nomatch blank

end

end Station.Keeps

end Sys2Proof.Machine
end

section
/-! PROOFS. The laws of the station through every command of the Insertion Controller (R109 to R130): a socket's timers and
cycle go with its insertion state. -/

namespace Sys2Proof.Machine

/-! ### One socket -/

theorem changesAfter_le {o : Option ProbeResult} {d : DetectClass} {n : Nat} (h : n ≤ Config.smallCountMax) :
    changesAfter o d n ≤ Config.smallCountMax := by
  unfold changesAfter
  split
  · split
    · exact h
    · exact satSucc_le h
  · exact h

namespace IncSocket

variable {i : IncSocket}

/-- R113: a cycle begins in BYPASSED. -/
theorem keeps_probes (hs : i.state = .bypassed) : i.Keeps i.probes :=
  ⟨fun h => by simp_all [Sound, probes], id, id, id⟩

/-- R122: the shunt opens in BYPASSED. -/
theorem keeps_inserts (hs : i.state = .bypassed) (ms : Nat) (m : MeterId) : i.Keeps (i.inserts ms m) :=
  ⟨fun h => by simp_all [Sound, inserts], id, id, id⟩

/-- R115, R116: a cycle that runs ends in BYPASSED. -/
theorem keeps_probed (hc : i.cycle ≠ .none) (r : ProbeResult) : i.Keeps (i.probed r) := by
  rw [← probed_eq]
  exact ⟨fun h => by simp_all [Sound], changesAfter_le, id, id⟩

/-- R126, R129: a socket cools from where its shunt was open. -/
theorem keeps_cooled (hs : i.state = .inserting ∨ i.state = .inserted) : i.Keeps i.cooled :=
  ⟨fun h => by rcases hs with hs | hs <;> simp_all [Sound, cooled], id, id, id⟩

/-- R129: the cool-down ends in BYPASSED. -/
theorem keeps_coolDownEnd (hs : i.state = .cooling) : i.Keeps { i with state := .bypassed, coolDown := none } :=
  ⟨fun h => by simp_all [Sound], id, id, id⟩

/-- R122: the insertion window ends in INSERTED. -/
theorem keeps_windowEnd (hs : i.state = .inserting) : i.Keeps
    { i with state := .inserted, window := none, overburden := .zero, openCircuit := .zero } :=
  ⟨fun h => by simp_all [Sound], id, id, id⟩

/-- R125: a supervision timer moves in INSERTED only. -/
theorem keeps_modSup (hs : i.state = .inserted) (t : SupTimer) (f : Supervision → Supervision) :
    i.Keeps (Station.modSup i t f) := by
  cases t <;> exact ⟨fun h => by simp_all [Sound, Station.modSup], id, id, id⟩

theorem keeps_countFault (t : SupTimer) (i : IncSocket) : i.Keeps (Station.countFault t i) := by
  cases t
  · exact ⟨id, id, satSucc_le, id⟩
  · exact ⟨id, id, id, satSucc_le⟩

/-- Time takes no socket out of its state. -/
theorem keeps_elapse (i : IncSocket) : i.Keeps i.elapse := by
  refine ⟨fun ⟨hz, hc, hw, hd⟩ => ?_, id, id, id⟩
  have cycle : i.cycle.elapse ≠ .none ↔ i.cycle ≠ .none := by cases i.cycle <;> simp [ProbeCycle.elapse]
  have ticks : ∀ t : Timer, t.tick.isSome = t.isSome := fun t => by cases t <;> rfl
  refine ⟨fun hs => ?_, cycle.trans hc, ?_, ?_⟩
  · simpa [elapse, show i.state ≠ .inserted from hs] using hz hs
  · simpa only [elapse, ticks] using hw
  · simpa only [elapse, ticks] using hd

end IncSocket

namespace Station.Keeps

variable {a st : Station} {s : Socket}

section
variable (h : a.Keeps st)
include h

/-! ### Probe cycles and joins (R113 to R123) -/

theorem startCycle (hs : (st.incSocket s).state = .bypassed) : a.Keeps (st.startCycle s) :=
  h.modInc (IncSocket.keeps_probes hs)

theorem failJoin {c : JoinFault} : a.Keeps (st.failJoin s c) := (h.modInc ⟨id, id, id, id⟩).tellStc

theorem stepTwo (hs : (st.incSocket s).state = .bypassed) : a.Keeps (st.stepTwo s) := by
  unfold Station.stepTwo
  split
  · exact h.failJoin
  · split
    · exact h.failJoin
    · exact h.modInc (IncSocket.keeps_inserts hs _ _)
    · exact h.failJoin

theorem stepOneBypassed (hs : (st.incSocket s).state = .bypassed) : a.Keeps (st.stepOneBypassed s) := by
  unfold Station.stepOneBypassed
  split
  · exact h.stepTwo hs
  · exact (h.startCycle hs).modInc ⟨id, id, id, id⟩

theorem endCycle {r : ProbeResult} (hc : (st.incSocket s).cycle ≠ .none) : a.Keeps (st.endCycle s r) := by
  have ended : a.Keeps (st.modInc s fun i => i.probed r) := h.modInc (IncSocket.keeps_probed hc r)
  have bypassed : ((st.modInc s fun i => i.probed r).incSocket s).state = .bypassed := by simp [IncSocket.probed]
  unfold Station.endCycle
  simp only [probed_eq]
  split
  · exact ended.stepOneBypassed bypassed
  · exact ended.stepTwo bypassed
  · exact ended

theorem incStartUpEnd : a.Keeps st.incStartUpEnd := h.incNotice fun _ _ h => by
  refine each (by exact { h with }) fun _ _ h => ?_
  split
  · rename_i hc
    exact h.startCycle hc.2
  · exact h

theorem idleProbeStart : a.Keeps (st.idleProbeStart s) := by
  unfold Station.idleProbeStart
  split
  · rename_i hc
    exact h.startCycle hc.2.2.2.2
  · exact h

/-- R114: classify is the same cycle. -/
theorem requestProbe {confirm : Bool} (hc : (st.incSocket s).cycle ≠ .none) : a.Keeps (st.requestProbe s confirm) :=
  requestBurst (h.modInc ⟨fun hs => by simp_all [IncSocket.Sound], id, id, id⟩)

theorem detectEnd {r : Nat} : a.Keeps (st.detectEnd s r) := by
  unfold Station.detectEnd
  split
  · rename_i hc _
    split
    · exact h.requestProbe (by simp [hc])
    · exact h.endCycle (by simp [hc])
  · exact h

theorem probeBurstEnd : a.Keeps (st.probeBurstEnd s) := h.incReport fun _ _ h => by
  split
  · rename_i hc _
    split
    · exact h.endCycle (by simp [hc])
    · exact h
  · exact h

theorem openJoin {late : Bool} : a.Keeps (st.openJoin late s) := by
  have opened : a.Keeps (st.modInc s fun i => { i with joinFault := .none, deferred := none, join := .none }) :=
    h.modInc ⟨id, id, id, id⟩
  unfold Station.openJoin
  split
  · dsimp only
    split
    · exact opened.modInc (IncSocket.keeps_lateFault _ _)
    · split
      · exact opened.modInc ⟨id, id, id, id⟩
      · exact opened.modInc ⟨id, id, id, id⟩
      · rename_i hs
        exact opened.stepOneBypassed (by simpa using hs)
      · exact opened
      · exact opened
  · exact h.modInc ⟨id, id, id, id⟩

theorem incRunOpened : a.Keeps st.incRunOpened := h.incRunOpenedNotice fun _ _ h =>
  each (by exact { h with }) fun _ _ h => h.openJoin

theorem senseAboveVopen : a.Keeps (st.senseAboveVopen s) := by
  unfold Station.senseAboveVopen
  split
  · rename_i hs
    exact (h.modInc (IncSocket.keeps_cooled (.inl hs))).failJoin
  · exact h

theorem askPreset : a.Keeps (st.askPreset s) := by
  have asked : a.Keeps (st.modInc s fun i => { i with join := .preset st.inc.nextPreset }) := h.modInc ⟨id, id, id, id⟩
  exact { asked with }

theorem insertionWindowEnd : a.Keeps (st.insertionWindowEnd s) := by
  unfold Station.insertionWindowEnd
  split
  · rename_i hs
    exact askPreset (h.modInc (IncSocket.keeps_windowEnd hs))
  · exact h

theorem takePresetOutcome {ok : Bool} : a.Keeps (st.takePresetOutcome s ok) := by
  unfold Station.takePresetOutcome
  split
  · exact (h.modInc ⟨id, id, id, id⟩).tellStc
  · exact h.closeShunt.failJoin

theorem presetOutcome : a.Keeps (st.presetOutcome s) := h.incReport fun ⟨_, _⟩ _ h => by
  dsimp only
  split
  · exact h.takePresetOutcome
  · exact h

/-! ### Supervision and shedding (R125 to R130, R145) -/

theorem placeSupervisionBypass {c : OutCause} : a.Keeps (st.placeSupervisionBypass s c) := by
  unfold Station.placeSupervisionBypass
  dsimp only
  split
  · exact h.placeBypass
  · split
    · split
      · exact h.modInc ⟨id, id, id, id⟩
      · exact h.modInc (IncSocket.keeps_lateFault _ _)
    · exact h

theorem supervisionLimit {t : SupTimer} : a.Keeps (st.supervisionLimit s t) := by
  unfold Station.supervisionLimit
  split
  · rename_i hc
    have cooled := h.modInc (IncSocket.keeps_cooled (.inr hc.1))
    exact (cooled.modInc (IncSocket.keeps_countFault t _)).withdrawVerdict.tellStc.placeSupervisionBypass
  · exact h

theorem supervisionDecay {t : SupTimer} : a.Keeps (st.supervisionDecay s t) := by
  unfold Station.supervisionDecay
  split
  · rename_i hc
    exact h.modInc (IncSocket.keeps_modSup hc.1 t _)
  · exact h

theorem supervisionRise {l : SupTimer} : a.Keeps (st.supervisionRise s l) := by
  unfold Station.supervisionRise
  split
  · rename_i hs
    refine h.modInc ?_
    cases l
    · exact IncSocket.keeps_modSup hs .overburden _
    · exact (IncSocket.keeps_modSup hs .overburden _).trans
        (IncSocket.keeps_modSup (i := modSup _ .overburden _) hs .openCircuit _)
  · exact h

theorem coolDownEnd : a.Keeps (st.coolDownEnd s) := by
  unfold Station.coolDownEnd
  split
  · rename_i hs
    have cooled : a.Keeps (st.modInc s fun i => { i with state := .bypassed, coolDown := none }) :=
      h.modInc (IncSocket.keeps_coolDownEnd hs)
    dsimp only
    split
    · exact cooled.stepOneBypassed (by simp)
    · exact cooled
  · exact h

theorem shedSocket {level : Nat} : a.Keeps (st.shedSocket level s) := by
  unfold Station.shedSocket
  split
  · exact h.closeShunt.withdrawVerdict.tellStc.placeBypass
  · exact h

theorem incShed : a.Keeps st.incShed := h.incNotice fun _ _ h => h.each fun _ _ h => h.shedSocket

theorem incRunEnded : a.Keeps st.incRunEnded := h.incNotice fun _ _ h => { h with }

theorem verifyFailReport : a.Keeps (st.verifyFailReport s) := h.incReport fun _ _ h => h.placeBypass

end

end Station.Keeps

end Sys2Proof.Machine
end

section
/-! PROOFS. The laws of the station through every command of the Step Controller (chapter 3), and through time. -/

namespace Sys2Proof.Machine

namespace Station.Keeps

variable {a st : Station} {s : Socket}

section
variable (h : a.Keeps st)
include h

theorem withStc {c : Stc} : a.Keeps { st with stc := c } := { h with }

theorem withGcu {g : Gcu} : a.Keeps { st with gcu := g } := { h with }

/-! ### Joining (R65 to R69, R127) -/

theorem placeJoinIfComplete : a.Keeps st.placeJoinIfComplete := by
  have placed : a.Keeps (st.placeJoin st.bmr.runNo st.joinBody) := h.placeJoin rfl
  unfold Station.placeJoinIfComplete
  split
  · exact placed.withStc
  · exact h

theorem stcRunOpened : a.Keeps st.stcRunOpened := h.stcRunOpenedNotice fun _ _ h => placeJoinIfComplete { h with }

theorem stcTableRefusal : a.Keeps st.stcTableRefusal := h.stcNotice fun ⟨_, _⟩ _ h =>
  placeJoin (h.each fun _ _ h => h.modInc ⟨id, id, id, id⟩) rfl

theorem takeJoinOutcome {o : JoinOutcome} : a.Keeps (st.takeJoinOutcome s o) := by
  unfold Station.takeJoinOutcome
  split
  · split
    · exact placeJoinIfComplete { h with }
    · exact h.modCtx.placeJoinIfComplete
  · exact h

theorem joinOutcome : a.Keeps (st.joinOutcome s) := h.stcReport fun _ _ h => h.takeJoinOutcome

theorem placeDeferred : a.Keeps (st.placeDeferred s) := by
  unfold Station.placeDeferred
  split
  · exact h.placeBypass.modInc ⟨id, id, id, id⟩
  · exact h

theorem ownJoinApplied : a.Keeps st.ownJoinApplied := h.stcNotice fun _ _ h => by
  refine each (h.each fun _ _ h => ?_) fun _ _ h => h.placeDeferred
  split
  · exact h.modCtx
  · exact h

theorem ownJoinIgnored : a.Keeps st.ownJoinIgnored := h.stcNotice fun _ _ h => by
  refine each (h.each fun _ _ h => ?_) fun _ _ h => h.modInc ⟨id, id, id, id⟩
  split
  · exact h.endJoinLate.modCtx
  · exact h

/-! ### Windows and verdicts (R74, R75, R79 to R83, R105) -/

theorem startWindow : a.Keeps (st.startWindow s) := h.modCtx.openWindow

theorem retry : a.Keeps (st.retry s) := by
  unfold Station.retry
  split
  · exact h.modCtx
  · split
    · exact h.modCtx
    · exact h.startWindow

theorem finalVerdict {v : Verdict} {mean : Int} {spread attempts adjustments : Nat} :
    a.Keeps (st.finalVerdict s v mean spread attempts adjustments) := h.modCtx.placeFrame rfl rfl

theorem takeAccuracyEnd {r : WindowReport} : a.Keeps (st.takeAccuracyEnd s r) := by
  unfold Station.takeAccuracyEnd
  dsimp only
  split
  · exact h.modCtx.modCtx.retry
  · exact h.modCtx.finalVerdict
  · exact h.modCtx.finalVerdict
  · exact h.modCtx.modCtx.tellCru

theorem accuracyWindowEnd : a.Keeps (st.accuracyWindowEnd s) := h.stcReport fun _ _ h => by
  split
  · exact h.takeAccuracyEnd
  · exact h

theorem timedWindowEnd : a.Keeps (st.timedWindowEnd s) := h.stcReport fun _ _ h => by
  split
  · exact h.finalVerdict
  · exact h

theorem takeEnded : a.Keeps (st.takeEnded s) := by
  unfold Station.takeEnded
  split
  · split
    · rename_i w _ _
      cases w
      · exact takeAccuracyEnd (by exact { h with })
      · exact finalVerdict (by exact { h with })
    · exact h
  · exact h

theorem beforeVoids {voids : Socket → Bool} : a.Keeps (st.beforeVoids voids) := h.each fun _ _ h => by
  split
  · exact h.takeEnded
  · exact h

/-! ### Steps (R70 to R74, R84, R85) -/

theorem dropSocket {c : OutCause} : a.Keeps (st.dropSocket s c) := h.voidWindow.withdrawVerdict.closeShunt.modCtx

theorem compareRoster {atLoadSet : Bool} : a.Keeps (st.compareRoster atLoadSet) := h.each fun _ _ h => by
  unfold compareSocket
  split
  · exact h.dropSocket
  · exact h

theorem endLateJoin {noneLeft : Bool} : a.Keeps (st.endLateJoin noneLeft s) := by
  unfold Station.endLateJoin
  split
  · exact h.endJoinLate.modCtx
  · exact h

theorem startSocket {k : Nat} {paused : Bool} : a.Keeps (st.startSocket k paused s) := by
  unfold Station.startSocket
  dsimp only
  split
  · exact h.modCtx
  · exact h

theorem stcLoadSet : a.Keeps st.stcLoadSet := h.stcNotice fun ⟨k, p, n⟩ _ h => by
  refine each (withStc ?_) fun _ _ h => h.startSocket
  split
  · exact h.beforeVoids.compareRoster.each fun _ _ h => h.endLateJoin
  · exact h.beforeVoids.compareRoster

theorem settleExpiry : a.Keeps (st.settleExpiry s) := by
  unfold Station.settleExpiry
  split
  · split <;> exact h.modCtx
  · exact h

theorem rdyRising : a.Keeps st.rdyRising := by
  unfold Station.rdyRising
  split
  · refine each (by exact { h with }) fun _ _ h => ?_
    split
    · exact h.startWindow
    · exact h
  · exact h

theorem disturb : a.Keeps st.disturb := h.each fun _ _ h => by
  unfold disturbSocket
  split
  · exact h.modCtx
  · exact h.modCtx
  · exact h.voidWindow.modCtx
  · exact h.modCtx
  · exact h.modCtx
  · exact h

theorem rdyFalling : a.Keeps st.rdyFalling := by
  have ended : a.Keeps (st.beforeVoids fun _ => true) := h.beforeVoids
  unfold Station.rdyFalling
  split
  · dsimp only
    split
    · exact ended.withGcu.disturb
    · exact ended.withGcu
  · exact h

theorem stcDisturbance : a.Keeps st.stcDisturbance := h.stcNotice fun _ _ h => h.beforeVoids.compareRoster.disturb

theorem takeAdjusted {o : AdjustOutcome} : a.Keeps (st.takeAdjusted s o) := by
  unfold Station.takeAdjusted
  split
  · exact h.modCtx
  · split
    · exact h.modCtx
    · exact h.finalVerdict
    · exact h.finalVerdict
    · exact h.finalVerdict

theorem adjustmentOutcome : a.Keeps (st.adjustmentOutcome s) := h.stcReport fun _ _ h => by
  split
  · exact h.takeAdjusted
  · exact h

theorem stcMaskEnd : a.Keeps (st.stcMaskEnd s) := h.stcReport fun _ _ h => by
  split
  · exact h.retry
  · split
    · exact h.modCtx
    · exact h

theorem completeSocket {last : Bool} : a.Keeps (st.completeSocket last s) := by
  unfold Station.completeSocket
  dsimp only
  split
  · split
    · exact h.modCtx.closeShunt.tellSlu
    · exact h
  · split
    · exact h.closeShunt.modCtx
    · exact h

theorem stcStepComplete : a.Keeps st.stcStepComplete := h.stcNotice fun _ _ h =>
  h.beforeVoids.compareRoster.each fun _ _ h => h.completeSocket

/-! ### Bypass, pause and the end of the run (R86 to R89) -/

theorem takeBypassReport {c : OutCause} : a.Keeps (st.takeBypassReport s c) := by
  unfold Station.takeBypassReport
  dsimp only
  split
  · split
    · exact h.beforeVoids.voidWindow.withdrawVerdict.modCtx
    · exact h.beforeVoids.voidWindow.withdrawVerdict.modCtx.disturb
  · split
    · exact h.modCtx
    · split
      · split
        · exact h.modCtx
        · exact placeJoinIfComplete (modCtx (by exact { h with }))
      · exact h

theorem localBypass : a.Keeps (st.localBypass s) := h.stcReport fun _ _ h => h.takeBypassReport

theorem muteNotice : a.Keeps st.muteNotice := h.stcReport fun _ _ h => { h with }

theorem stcPaused : a.Keeps st.stcPaused := h.stcNotice fun _ _ h => h.beforeVoids.each fun _ _ h => by
  unfold pauseSocket
  split
  · exact h.modCtx
  · exact h.modCtx
  · exact h.voidWindow.modCtx
  · exact h

theorem stcResumed : a.Keeps st.stcResumed := h.stcNotice fun _ _ h => h.each fun _ _ h => by
  unfold resumeSocket
  split
  · exact h.modCtx
  · exact h

theorem endSocket {e : EndCause} : a.Keeps (st.endSocket e s) := by
  unfold Station.endSocket
  split
  · exact h.endJoinLate.modCtx
  iterate 8 · exact h.dropSocket
  · exact h

theorem stcRunEnded : a.Keeps st.stcRunEnded := h.stcNotice fun _ _ h =>
  withStc ((h.beforeVoids.each fun _ _ h => h.endSocket).each fun _ _ h => h.closeShunt)

/-! ### Bytes no order awaits, and time (R149) -/

theorem strayByte {b : RxByte} : a.Keeps (st.strayByte s b) := h

theorem tick : a.Keeps st.tick := by
  refine { h with lkc := h.lkc.trans ⟨id, id, id⟩, inc := fun x => (h.inc x).trans ?_, port := fun x hp => ?_ }
  · rw [show st.tick.incSocket x = (st.incSocket x).elapse from Quad.get_map _ _ _]
    exact IncSocket.keeps_elapse _
  · rw [show st.tick.port x = (st.port x).elapse from Quad.get_map _ _ _]
    exact fun hr => h.port x hp (Option.map_eq_none_iff.mp hr)

end

end Station.Keeps

end Sys2Proof.Machine
end

section
/-! PROOFS. The laws of the station through every step. Only the end of start-up asks something of the state it meets: the
ANNOUNCE goes into an empty queue (R181, R190). -/

namespace Sys2Proof.Machine

namespace Station

/-- What a step keeps of the laws, as O59 has it: the law of the outbound queue once start-up has ended, and before from an
empty queue. -/
structure LawsKept (a b : Station) : Prop where
  inbound : a.lkc.InboundSound → b.lkc.InboundSound
  outbound : (a.cfl.stage = .running ∨ a.lkc.outbound = []) → a.lkc.OutboundSound → b.lkc.OutboundSound
  port : (∀ x, (a.port x).Sound) → ∀ x, (b.port x).Sound
  seals : a.SealBurstsApart → b.SealBurstsApart
  inc : (∀ x, (a.incSocket x).Sound) → ∀ x, (b.incSocket x).Sound
  counters : a.CountersSound → b.CountersSound

variable {a b st : Station}

theorem Keeps.lawsKept (h : a.Keeps b) : a.LawsKept b where
  inbound := h.lkc.inbound
  outbound _ := h.lkc.outbound
  port hp x := h.port x (hp x)
  seals := h.seals
  inc hi x := (h.inc x).sound (hi x)
  counters := h.counters

/-! ### Start-up (R179 to R182) -/

theorem Keeps.powerOnResetEnd (h : a.Keeps st) {straps : BitVec 5} {rdy lrst flt : Bool} :
    a.Keeps (st.powerOnResetEnd straps rdy lrst flt) := by
  unfold Station.powerOnResetEnd
  split
  · exact { h with lkc := h.lkc.trans ⟨id, id, id⟩ }
  · exact h

theorem Keeps.readRetry (h : a.Keeps st) : a.Keeps st.readRetry := by
  unfold Station.readRetry
  split
  · exact { h with }
  · exact h

/-- R181, R190: the ANNOUNCE is the first entry of the queue. -/
theorem lawsKept_enterRunning (st : Station) (l : Loaded) (hs : st.cfl.stage ≠ .running) :
    st.LawsKept (st.enterRunning l) := by
  rw [enterRunning_eq]
  exact
    { inbound := id
      outbound := fun hq ho => by
        have hempty := hq.resolve_left hs
        refine ho.insert (e := newEntry0 (announceBody l)) ?_ ?_ ?_ (.inl rfl) <;>
          simp [hempty, insertEntry, newEntry0, announceBody]
      port := id
      seals := id
      inc := id
      counters := id }

theorem lawsKept_attemptEnd (st : Station) (answer : Option (List Byte)) : st.LawsKept (st.attemptEnd answer) := by
  unfold attemptEnd
  split
  · rename_i hs
    have counted : st.Keeps { st with cfl := { st.cfl with attempts := st.cfl.attempts + 1 } } :=
      { Keeps.refl st with }
    have ends : ∀ l, st.LawsKept
        (Station.enterRunning { st with cfl := { st.cfl with attempts := st.cfl.attempts + 1 } } l) :=
      fun l => by
        have := lawsKept_enterRunning { st with cfl := { st.cfl with attempts := st.cfl.attempts + 1 } } l (by simp [hs])
        exact { this with }
    dsimp only
    split
    · split
      · exact Keeps.lawsKept { counted with }
      · exact ends _
    · exact ends _
  · exact (Keeps.refl st).lawsKept

/-- At reset every law holds. -/
theorem lawsKept_reset (st : Station) : st.LawsKept .reset where
  inbound _ := by simp [Lkc.InboundSound, Station.reset, Lkc.reset, frameFill]
  outbound _ _ := by simp [Lkc.OutboundSound, Station.reset, Lkc.reset]
  port _ x := by simp [Port.Sound, Station.port, Station.reset, Mpc.reset, Port.reset]
  seals _ x b hx := by simp [sluSocket, Station.reset, Slu.reset, SluSocket.reset] at hx
  inc _ x := by simpa [incSocket, Station.reset, Inc.reset] using IncSocket.sound_reset
  counters _ := by simp [CountersSound, Station.reset, Lkc.reset, Rpu.reset, Inc.reset, IncSocket.reset]

end Station

/-! ### Every command -/

/-- What the effect on the station keeps, the command keeps; under power-on reset the station stays. -/
theorem State.run_lawsKept {s t : State} {f : Station → Station} (h : s.run f = .next t)
    (hf : ∀ st : Station, st.LawsKept (f st)) : s.st.LawsKept t.st := by
  by_cases hr : s.st.cfl.stage = .inReset
  · rw [State.run_inReset hr] at h
    cases h
    exact (Station.Keeps.refl _).lawsKept
  · rw [State.run_awake hr] at h
    cases h
    exact hf _

theorem State.run_keeps {s t : State} {f : Station → Station} (h : s.run f = .next t)
    (hf : ∀ st : Station, st.Keeps st → st.Keeps (f st)) : s.st.LawsKept t.st :=
  State.run_lawsKept h fun st => (hf st (.refl st)).lawsKept

theorem exec_lawsKept {c : Instr} {s t : State} (h : exec c s = .next t) : s.st.LawsKept t.st := by
  cases c
  case powerOnReset => cases h; exact Station.lawsKept_reset _
  case powerOnResetEnd straps rdyHigh lrst flt => cases h; exact (Station.Keeps.refl _).powerOnResetEnd.lawsKept
  case readAttemptEnd answer => exact State.run_lawsKept h fun st => st.lawsKept_attemptEnd answer
  case storeClockHeldTimeout => exact State.run_lawsKept h fun st => st.lawsKept_attemptEnd none
  case readRetryTimer => exact State.run_keeps h fun _ k => k.readRetry
  case idleInterval => exact State.run_keeps h fun _ k => k.idleInterval
  case roundStartMark => exact State.run_keeps h fun _ k => k.roundStart
  case holdSlotEnd => exact State.run_keeps h fun _ k => k.holdSlotEnd
  case frameStartLimit => exact State.run_keeps h fun _ k => k.frameStartLimit
  case holdWaitEnd => exact State.run_keeps h fun _ k => k.holdWaitEnd
  case frameEnd => exact State.run_keeps h fun _ k => k.frameEnd
  case earlyEndSilence => exact State.run_keeps h fun _ k => k.earlyEnd
  case framingViolation => exact State.run_keeps h fun _ k => k.framingViolation
  case readbackFailure => exact State.run_keeps h fun _ k => k.readbackFailure
  case objectionSlotEnd marked => exact State.run_keeps h fun _ _ => .objectionSlotEnd marked
  case lrstRisingEdge => exact State.run_keeps h fun _ k => k.lrstRising
  case lrstReleased => exact State.run_keeps h fun _ k => k.lrstReleased
  case ownLrstEnd => exact State.run_keeps h fun _ k => k.ownLrstEnd
  case fltRisingEdge => exact State.run_keeps h fun _ k => k.fltRising
  case ownFltEnd => exact State.run_keeps h fun _ k => k.ownFltEnd
  case takeRunOpen => exact State.run_keeps h fun _ k => k.takeRunOpen
  case takeJoin => exact State.run_keeps h fun _ k => k.takeJoin
  case takeLoadSet => exact State.run_keeps h fun _ k => k.takeLoadSet
  case takeVerdict => exact State.run_keeps h fun _ k => k.takeVerdict
  case takeBypass => exact State.run_keeps h fun _ k => k.takeBypass
  case takeShed => exact State.run_keeps h fun _ k => k.takeShed
  case takePause => exact State.run_keeps h fun _ k => k.takePause
  case takeResume => exact State.run_keeps h fun _ k => k.takeResume
  case takeRunAbort => exact State.run_keeps h fun _ k => k.takeRunAbort
  case takeBenchFaultMarker => exact State.run_keeps h fun _ k => k.takeBenchFault
  case takeLinkResetMarker => exact State.run_keeps h fun _ k => k.takeLinkReset
  case takePoolExtend => exact State.run_keeps h fun _ k => k.takePoolExtend
  case takeSealClaim => exact State.run_keeps h fun _ k => k.takeSealClaim
  case takeSealDone => exact State.run_keeps h fun _ k => k.takeSealDone
  case takeSealSpoil => exact State.run_keeps h fun _ k => k.takeSealSpoil
  case takeAnnounce => exact State.run_keeps h fun _ k => k.takeAnnounce
  case takeQuery => exact State.run_keeps h fun _ k => k.takeQuery
  case takeState => exact State.run_keeps h fun _ k => k.takeState
  case mirrorCheckNotice => exact State.run_keeps h fun _ k => k.mirrorCheckNotice
  case stcRunOpened => exact State.run_keeps h fun _ k => k.stcRunOpened
  case stcTableRefusal => exact State.run_keeps h fun _ k => k.stcTableRefusal
  case joinOutcome => exact State.run_keeps h fun _ k => k.joinOutcome
  case ownJoinApplied => exact State.run_keeps h fun _ k => k.ownJoinApplied
  case ownJoinIgnored => exact State.run_keeps h fun _ k => k.ownJoinIgnored
  case stcLoadSet => exact State.run_keeps h fun _ k => k.stcLoadSet
  case settleTimerExpiry => exact State.run_keeps h fun _ k => k.settleExpiry
  case rdyRisingEdge => exact State.run_keeps h fun _ k => k.rdyRising
  case rdyFallingEdge => exact State.run_keeps h fun _ k => k.rdyFalling
  case stcDisturbance => exact State.run_keeps h fun _ k => k.stcDisturbance
  case accuracyWindowEnd => exact State.run_keeps h fun _ k => k.accuracyWindowEnd
  case creepStartWindowEnd => exact State.run_keeps h fun _ k => k.timedWindowEnd
  case adjustmentOutcome => exact State.run_keeps h fun _ k => k.adjustmentOutcome
  case stcMaskEnd => exact State.run_keeps h fun _ k => k.stcMaskEnd
  case stcStepComplete => exact State.run_keeps h fun _ k => k.stcStepComplete
  case localBypass => exact State.run_keeps h fun _ k => k.localBypass
  case muteNotice => exact State.run_keeps h fun _ k => k.muteNotice
  case stcPaused => exact State.run_keeps h fun _ k => k.stcPaused
  case stcResumed => exact State.run_keeps h fun _ k => k.stcResumed
  case stcRunEnded => exact State.run_keeps h fun _ k => k.stcRunEnded
  case refPulse => exact State.run_keeps h fun _ k => k.refPulse
  case meterPulse => exact State.run_keeps h fun _ k => k.meterPulse
  case gateTimeout => exact State.run_keeps h fun _ k => k.gateTimeout
  case creepWindowTimer => exact State.run_keeps h fun _ k => k.creepTimer
  case startWindowTimer => exact State.run_keeps h fun _ k => k.startTimer
  case writeBurstEnd => exact State.run_keeps h fun _ k => k.writeBurstEnd
  case pulseMaskEnd => exact State.run_keeps h fun _ k => k.pulseMaskEnd
  case incStartUpEnd => exact State.run_keeps h fun _ k => k.incStartUpEnd
  case idleProbeStart => exact State.run_keeps h fun _ k => k.idleProbeStart
  case detectEnd p r =>
    exact State.run_keeps (f := fun st => st.atPosition p fun x => Station.detectEnd x r) h
      fun _ k => k.atPosition fun _ => k.detectEnd
  case probeBurstEnd => exact State.run_keeps h fun _ k => k.probeBurstEnd
  case incRunOpened => exact State.run_keeps h fun _ k => k.incRunOpened
  case insertionSenseAboveVopen p =>
    exact State.run_keeps (f := fun st => st.atPosition p fun x => Station.senseAboveVopen x) h
      fun _ k => k.atPosition fun _ => k.senseAboveVopen
  case insertionWindowEnd => exact State.run_keeps h fun _ k => k.insertionWindowEnd
  case presetOutcome => exact State.run_keeps h fun _ k => k.presetOutcome
  case supervisionTimerLimit => exact State.run_keeps h fun _ k => k.supervisionLimit
  case supervisionTimerDecay => exact State.run_keeps h fun _ k => k.supervisionDecay
  case supervisionTimerRise p l =>
    exact State.run_keeps (f := fun st => st.atPosition p fun x => Station.supervisionRise x l) h
      fun _ k => k.atPosition fun _ => k.supervisionRise
  case coolDownEnd => exact State.run_keeps h fun _ k => k.coolDownEnd
  case incShed => exact State.run_keeps h fun _ k => k.incShed
  case incRunEnded => exact State.run_keeps h fun _ k => k.incRunEnded
  case verifyFailReport => exact State.run_keeps h fun _ k => k.verifyFailReport
  case presetRequest => exact State.run_keeps h fun _ k => k.presetRequest
  case presetBurstEnd => exact State.run_keeps h fun _ k => k.presetBurstEnd
  case correctionRequest => exact State.run_keeps h fun _ k => k.correctionRequest
  case adjustBurstEnd => exact State.run_keeps h fun _ k => k.adjustBurstEnd
  case verificationRequest => exact State.run_keeps h fun _ k => k.verificationRequest
  case verifyBurstEnd => exact State.run_keeps h fun _ k => k.verifyBurstEnd
  case cruRunOpened => exact State.run_keeps h fun _ k => k.cruRunOpened
  case burstRequest => exact State.run_keeps h fun _ k => k.burstRequest
  case burstWithdrawal => exact State.run_keeps h fun _ k => k.burstWithdrawal
  case orderSent => exact State.run_keeps h fun _ k => k.orderSent
  case replyReceived p bytes =>
    exact State.run_keeps (f := fun st => st.atPosition p fun x => Station.replyReceived x bytes) h
      fun _ k => k.atPosition fun _ => k.replyReceived
  case replyTimerExpiry => exact State.run_keeps h fun _ k => k.replyTimerExpiry
  case lineRestEnd => exact State.run_keeps h fun _ k => k.lineRestEnd
  case strayByte p b =>
    exact State.run_keeps (f := fun st => st.atPosition p fun x => Station.strayByte x b) h
      fun _ k => k.atPosition fun _ => k.strayByte
  case handOver => exact State.run_keeps h fun _ k => k.handOver
  case verificationOutcome => exact State.run_keeps h fun _ k => k.verificationOutcome
  case ownClaimNotice => exact State.run_keeps h fun _ k => k.ownClaimNotice
  case assignmentNotice => exact State.run_keeps h fun _ k => k.assignmentNotice
  case sealBurstEnd => exact State.run_keeps h fun _ k => k.sealBurstEnd
  case sluRunEnded => exact State.run_keeps h fun _ k => k.sluRunEnded
  case queryNotice => exact State.run_keeps h fun _ k => k.queryNotice
  case lampTimer => exact State.run_keeps h fun _ k => k.lampTimer
  case fltReleased => exact State.run_keeps h fun _ k => k.fltReleased
  case sluRunOpened => exact State.run_keeps h fun _ k => k.sluRunOpened
  case gcuRunOpened => exact State.run_keeps h fun _ k => k.gcuRunOpened

theorem step_lawsKept {s t : State} (h : step s = .next t) : s.st.LawsKept t.st := by
  unfold step at h
  split at h
  · exact State.run_keeps h fun _ k => k.tick
  case _ c cs _ => exact exec_lawsKept (s := { s with pending := cs }) h

/-! ### The end test (R9) -/

theorem Mirror.endTest_notDue_after (m : Mirror) : ¬ m.endTest.1.EndDue := by
  by_cases h : m.EndDue
  · rw [Mirror.endTest_due h]
    exact Mirror.notDue_of_phase (by simp [Mirror.endRun])
  · rwa [Mirror.endTest_notDue h]

/-- Every entry taken is followed by the end test. -/
theorem step_notDue {s t : State} (h : step s = .next t) (hd : ¬ s.st.bmr.EndDue) : ¬ t.st.bmr.EndDue := by
  rcases step_mirror h with h | ⟨run, slot, fp, first, count, steps, -, h⟩ | h | ⟨m, -, h⟩ <;> rw [h]
  · exact Mirror.notDue_of_phase (by simp [Mirror.reset])
  · exact Mirror.notDue_of_phase (by simp [Mirror.openRun])
  · exact hd
  · exact m.endTest_notDue_after

/-- Settles O59: every command keeps each law, block by block (`exec_lawsKept`), and the end test follows every entry taken. -/
theorem stationLawsKept : Obligations.StationLawsKept := by
  intro s t h
  have k := step_lawsKept h
  exact ⟨k.inbound, k.outbound, k.port, k.seals, k.inc, k.counters, step_notDue h⟩

end Sys2Proof.Machine
end

section
/-! PROOFS. From the hand-over to the held number (R164 to R171). -/

namespace Sys2Proof.Machine

namespace Station

variable {st : Station} {x : Socket} {rest : List SluMsg} {ok : Bool} {p : Phase} {n : Nat} {c : ClaimResult} {r : BurstReport}

/-! ### What the SLU hears -/

theorem handOver_heard (h : Heard SluMsg.overtakes st.slu.inbox (.handOver x) rest) :
    st.handOver = (st.sluLeft rest).takeHandOver x :=
  sluReport_heard h rfl fun m hm => by
    cases m
    case handOver | runOpened => simp [SluMsg.overtakes, SluMsg.isNotice, SluMsg.isRunOpened] at hm
    all_goals exact ⟨rfl, rfl⟩

theorem verificationOutcome_heard (h : Heard SluMsg.overtakes st.slu.inbox (.verification x ok p) rest)
    (hr : (st.ctx x).run = .verifying) : st.verificationOutcome x = (st.sluLeft rest).takeVerification x ok p := by
  refine (sluReport_heard h (b := (ok, p)) (by simp) fun m hm => ?_).trans (if_pos hr)
  cases m
  case runOpened => simp [SluMsg.overtakes, SluMsg.isNotice, SluMsg.isRunOpened] at hm
  case verification y _ _ =>
    have hy : x ≠ y := by simpa [SluMsg.overtakes, SluMsg.isNotice, SluMsg.isRunOpened] using hm
    exact ⟨if_neg hy.symm, rfl⟩
  all_goals exact ⟨rfl, rfl⟩

theorem sealBurstEnd_heard (h : Heard SluMsg.overtakes st.slu.inbox (.burstEnd x r) rest) :
    st.sealBurstEnd x = (st.sluLeft rest).takeSealEnd x r := by
  refine sluReport_heard h (by simp) fun m hm => ?_
  cases m
  case runOpened => simp [SluMsg.overtakes, SluMsg.isNotice, SluMsg.isRunOpened] at hm
  case burstEnd y _ =>
    have hy : x ≠ y := by simpa [SluMsg.overtakes, SluMsg.isNotice, SluMsg.isRunOpened] using hm
    exact ⟨if_neg hy.symm, rfl⟩
  all_goals exact ⟨rfl, rfl⟩

theorem ownClaimNotice_heard (h : Heard SluMsg.overtakes st.slu.inbox (.ownClaim x c) rest)
    (hr : (st.ctx x).run = .claiming) : st.ownClaimNotice = (st.sluLeft rest).takeOwnClaim x c := by
  refine (sluNotice_heard h rfl (b := (x, c)) rfl fun m hm => ?_).trans (if_pos hr)
  cases m
  case handOver | verification | burstEnd => rfl
  all_goals cases hm

theorem assignmentNotice_heard (h : Heard SluMsg.overtakes st.slu.inbox (.assignment x n) rest)
    (hr : (st.ctx x).run = .sealWait) : st.assignmentNotice = (st.sluLeft rest).takeNumber x n := by
  refine (sluNotice_heard h rfl (b := (x, n)) rfl fun m hm => ?_).trans (if_pos hr)
  cases m
  case handOver | verification | burstEnd => rfl
  all_goals cases hm

/-! ### The hand-over and the verification (R164 to R166) -/

theorem takeHandOver_ended (hr : (st.ctx x).run = .done) (hp : st.bmr.phase = .ended) :
    st.takeHandOver x = st.modCtx x fun c => c.leaves (st.rosterCause x) := by
  rw [takeHandOver, if_neg (not_not.mpr hr), if_pos hp]
  rfl

theorem takeHandOver_marked (hr : (st.ctx x).run = .done) (hp : st.bmr.phase ≠ .ended) (hm : st.anyMark x = true) :
    st.takeHandOver x =
      ((st.modSlu x fun y => { y with request := .verify }).setRun x .verifying).tellCru (.verifyRequest x) := by
  rw [takeHandOver, if_neg (not_not.mpr hr), if_neg hp, if_pos hm]

theorem takeHandOver_claims (hr : (st.ctx x).run = .done) (hp : st.bmr.phase ≠ .ended) (hm : st.anyMark x = false) :
    st.takeHandOver x = st.claim x := by
  rw [takeHandOver, if_neg (not_not.mpr hr), if_neg hp, if_neg (by simp [hm])]

end Station

/-- Settles O54: a hand-over by the checks of R164, the outcome of a verification by the phase at its report, and what becomes
of a claim by the notice of it; a number taken is `Station.takeNumber_eq`. -/
theorem sealingTakesItsNumber : Obligations.SealingTakesItsNumber := by
  refine ⟨fun s x rest ha h hr => ⟨fun hp => ?_, fun hp hm => ?_, fun hp hm => ?_⟩,
    fun s x rest ok p ha h hr => ⟨fun hp hok => ?_, fun hp hok => ?_, fun hp => ?_⟩,
    fun s x rest ha => ⟨fun n h hr => ?_, fun h hr => ?_, fun h hr => ?_, fun n h hr => ?_⟩⟩
  · exact next_of_run rfl ha ((Station.handOver_heard h).trans (Station.takeHandOver_ended hr hp))
  · exact next_of_run rfl ha ((Station.handOver_heard h).trans (Station.takeHandOver_marked hr hp hm))
  · exact next_of_run rfl ha ((Station.handOver_heard h).trans (Station.takeHandOver_claims hr hp hm))
  · subst hp hok
    exact next_of_run rfl ha (Station.verificationOutcome_heard h hr)
  · subst hp hok
    exact next_of_run rfl ha (Station.verificationOutcome_heard h hr)
  · exact next_of_run rfl ha ((Station.verificationOutcome_heard h hr).trans (if_neg hp))
  · exact next_of_run rfl ha (Station.ownClaimNotice_heard h hr)
  · exact next_of_run rfl ha (Station.ownClaimNotice_heard h hr)
  · exact next_of_run rfl ha (Station.ownClaimNotice_heard h hr)
  · exact next_of_run rfl ha (Station.assignmentNotice_heard h hr)

end Sys2Proof.Machine
end

section
/-! PROOFS. The end of a SEAL burst (R172, R173), and the run-ended notice at the SLU (R176): the turn it gives each
socket, which the turns of the other sockets leave as it is while their burst numbers differ. -/

namespace Sys2Proof.Machine

/-! ### The judgement of R172 -/

section Judgement

variable {f : SealFields} {r : BurstReport} {a b c : ExchangeRecord} {lk : Bool} {p : Option (List Byte)}

theorem judgeSeal_locked (h : r.result = .locked) : judgeSeal f r = some .locked := if_pos h

theorem judgeSeal_failed (hl : r.result ≠ .locked) (hk : r.result ≠ .ok) : judgeSeal f r = some .svcFail := by
  rw [judgeSeal, if_neg hl, if_pos hk]

/-- R172 checks 3 and 4 on the replies of a burst that ran to its end. -/
theorem judgeSeal_ok (h : r.result = .ok) (hr : r.records = [a, b, c]) (ha : a.reply = some .writeSeal)
    (hb : b.reply = some (.lock lk)) (hc : c.reply = some (.readSeal p)) : judgeSeal f r =
      if lk = false then some .svcFail else if p ≠ some f.bytes then some .sealMismatch else none := by
  have hlock : lockReply r.records = some lk := by simp [hr, lockReply, ha, hb]
  have hseal : sealReply r.records = p := by simp [hr, sealReply, ha, hb, hc]
  cases lk <;> simp [judgeSeal, h, hlock, hseal]

end Judgement

namespace Station

variable {st u : Station} {x y : Socket} {rest : List SluMsg} {e : EndCause} {r : BurstReport} {f : SealFields} {b : Nat}

/-! ### The end of the burst (R173) -/

theorem takeSealEnd_spoils {c : SpoilCause} (hq : (st.sluSocket x).request = .seal r.id)
    (hp : (st.sluSocket x).record = some { fields := f, status := .pending }) (hj : judgeSeal f r = some c) :
    st.takeSealEnd x r = st.placeSpoil x f c := by
  simp [takeSealEnd, hq, hp, hj]

theorem takeSealEnd_seals (hq : (st.sluSocket x).request = .seal r.id)
    (hp : (st.sluSocket x).record = some { fields := f, status := .pending }) (hj : judgeSeal f r = none) :
    st.takeSealEnd x r = st.placeDone x f := by
  simp [takeSealEnd, hq, hp, hj]

/-! ### The run-ended notice, socket by socket (R176) -/

theorem burstWaits_eq (st : Station) (x : Socket) (b : Nat) :
    st.burstWaits x b = ((st.port x).waiting.any (·.id == b) || st.mpc.inbox.any (asksBurst b)) := by
  unfold burstWaits
  cases (st.port x).waiting <;> rfl

/-- The SEAL burst of a socket, with the fields of its record, that the run's end spoils: it has not begun. -/
def runEndSpoil (st : Station) (x : Socket) : Option (Nat × SealFields) :=
  match (st.ctx x).run, (st.sluSocket x).request, (st.sluSocket x).record with
  | .sealing, .seal b, some rec => if st.burstWaits x b then some (b, rec.fields) else none
  | _, _, _ => none

theorem runEndSpoil_some (h : st.runEndSpoil x = some (b, f)) : (st.ctx x).run = .sealing ∧
    (st.sluSocket x).request = .seal b ∧ st.burstWaits x b = true ∧
    ∃ rec, (st.sluSocket x).record = some rec ∧ rec.fields = f := by
  unfold runEndSpoil at h
  split at h
  · rename_i hr hq hrec
    split at h
    · cases h
      exact ⟨hr, hq, ‹_›, _, hrec, rfl⟩
    · cases h
  · cases h

/-- The SEAL_SPOIL of a burst that the run's end spoils. -/
def endSpoilEntry (e : EndCause) (x : Socket) (f : SealFields) : OutEntry :=
  newEntry f.run (.sealSpoil (codeOf x.val) f.number (endSpoil e).code)

/-- What the notice makes of a socket's run context, of its part of the SLU and of its port. -/
def runEndCtx (st : Station) (x : Socket) : RunCtx :=
  if (st.runEndSpoil x).isSome then (st.ctx x).leaves .sealSpoiled
  else if (st.ctx x).run = .sealWait then (st.ctx x).leaves (st.rosterCause x)
  else st.ctx x

theorem runEndCtx_spoiled (hb : st.runEndSpoil x = some (b, f)) : st.runEndCtx x = (st.ctx x).leaves .sealSpoiled := by
  simp [runEndCtx, hb]

/-- A socket that waits for its seal has no burst that could be spoiled. -/
theorem runEndCtx_sealWait (hr : (st.ctx x).run = .sealWait) : st.runEndCtx x = (st.ctx x).leaves (st.rosterCause x) := by
  simp [runEndCtx, runEndSpoil, hr]

theorem runEndCtx_other (hn : st.runEndSpoil x = none) (hr : (st.ctx x).run ≠ .sealWait) : st.runEndCtx x = st.ctx x := by
  simp [runEndCtx, hn, hr]

def runEndSlu (st : Station) (x : Socket) : SluSocket :=
  match st.runEndSpoil x with
  | some (_, f) => { st.sluSocket x with record := some { fields := f, status := .spoiled }, request := .none }
  | none => st.sluSocket x

theorem runEndSlu_spoiled (hb : st.runEndSpoil x = some (b, f)) : st.runEndSlu x =
    { st.sluSocket x with record := some { fields := f, status := .spoiled }, request := .none } := by
  simp [runEndSlu, hb]

theorem runEndSlu_other (hn : st.runEndSpoil x = none) : st.runEndSlu x = st.sluSocket x := by simp [runEndSlu, hn]

def runEndPort (st : Station) (x : Socket) : Port :=
  match st.runEndSpoil x with
  | some (b, _) => withdrawn b (st.port x)
  | none => st.port x

theorem runEndPort_spoiled (hb : st.runEndSpoil x = some (b, f)) : st.runEndPort x = withdrawn b (st.port x) := by
  simp [runEndPort, hb]

theorem runEndPort_other (hn : st.runEndSpoil x = none) : st.runEndPort x = st.port x := by simp [runEndPort, hn]

/-- A message to the ports that the notice leaves at a socket's turn. -/
def runEndLeaves (st : Station) (x : Socket) (m : MpcMsg) : Bool := !(st.runEndSpoil x).any fun (b, _) => asksBurst b m

/-- The turn of a socket at the run-ended notice that found the station as `st`. -/
def runEndTurn (st : Station) (e : EndCause) (x : Socket) (u : Station) : Station := { u with
  stc := { u.stc with ctx := u.stc.ctx.set x (st.runEndCtx x) }
  slu := { u.slu with sockets := u.slu.sockets.set x (st.runEndSlu x) }
  lkc := { u.lkc with outbound := u.lkc.outbound ++ ((st.runEndSpoil x).map fun (_, f) => endSpoilEntry e x f).toList }
  mpc := { u.mpc with inbox := u.mpc.inbox.filter (st.runEndLeaves x), ports := u.mpc.ports.set x (st.runEndPort x) } }

/-- The station `u` is to the notice at socket `x` what `st` is. -/
structure SameForRunEnd (st : Station) (x : Socket) (u : Station) : Prop where
  cfl : u.cfl = st.cfl
  bmr : u.bmr = st.bmr
  ctx : u.ctx x = st.ctx x
  slu : u.sluSocket x = st.sluSocket x
  port : u.port x = st.port x
  asked : ∀ b, (st.sluSocket x).request = .seal b → u.mpc.inbox.any (asksBurst b) = st.mpc.inbox.any (asksBurst b)

theorem SameForRunEnd.refl (st : Station) (x : Socket) : st.SameForRunEnd x st := ⟨rfl, rfl, rfl, rfl, rfl, fun _ _ => rfl⟩

/-- No message asks for two bursts. -/
theorem asksBurst_unique {c : Nat} {m : MpcMsg} (h : asksBurst b m = true) (hc : asksBurst c m = true) : b = c := by
  cases m with
  | request y d =>
    simp only [asksBurst, beq_iff_eq] at h hc
    exact h.symm.trans hc
  | withdraw y n => cases h

/-- R171: the turn of another socket withdraws a burst of another number. -/
theorem SameForRunEnd.turn (h : st.SameForRunEnd x u) (hs : st.SealBurstsApart) (hy : x ≠ y) :
    st.SameForRunEnd x (st.runEndTurn e y u) where
  cfl := h.cfl
  bmr := h.bmr
  ctx := (Quad.get_set_other _ _ hy).trans h.ctx
  slu := (Quad.get_set_other _ _ hy).trans h.slu
  port := (Quad.get_set_other _ _ hy).trans h.port
  asked b hb := by
    rw [← h.asked b hb]
    show (u.mpc.inbox.filter (st.runEndLeaves y)).any (asksBurst b) = _
    rw [List.any_filter]
    congr 1
    funext m
    cases hm : asksBurst b m with
    | false => simp
    | true =>
      have left : st.runEndLeaves y m = true := by
        cases hy' : st.runEndSpoil y with
        | none => simp [runEndLeaves, hy']
        | some q =>
          obtain ⟨c, f⟩ := q
          obtain ⟨-, hq, -⟩ := runEndSpoil_some hy'
          have hne : b ≠ c := fun hbc => (hs x b hb).2 y hy.symm (hbc ▸ hq)
          have : asksBurst c m = false := by
            cases hc : asksBurst c m with
            | false => rfl
            | true => exact absurd (asksBurst_unique hm hc) hne
          simp [runEndLeaves, hy', this]
      simp [left]

theorem SameForRunEnd.runEndSpoil (h : st.SameForRunEnd x u) : u.runEndSpoil x = st.runEndSpoil x := by
  unfold Station.runEndSpoil
  rw [h.ctx, h.slu]
  split
  · rename_i b rec _ hq _
    rw [burstWaits, burstWaits, h.port, h.asked b hq]
  · rfl

theorem SameForRunEnd.rosterCause (h : st.SameForRunEnd x u) : u.rosterCause x = st.rosterCause x := by
  have entry : u.ownEntry x = st.ownEntry x := by simp only [ownEntry, rosterIndex, h.bmr, h.cfl]
  simp only [Station.rosterCause, entry, h.bmr, h.cfl]

theorem SameForRunEnd.turn_of_none (h : st.SameForRunEnd x u) (hn : st.runEndSpoil x = none) :
    st.runEndTurn e x u = u.modCtx x fun _ => st.runEndCtx x := by
  have slu : u.slu.sockets.set x (st.sluSocket x) = u.slu.sockets := h.slu ▸ Quad.set_get_self _ _
  have ports : u.mpc.ports.set x (st.port x) = u.mpc.ports := h.port ▸ Quad.set_get_self _ _
  have leaves : st.runEndLeaves x = fun _ => true := funext fun m => by simp [runEndLeaves, hn]
  simp [runEndTurn, runEndSlu, runEndPort, leaves, hn, slu, ports, modCtx]

theorem SameForRunEnd.turn_of_some (h : st.SameForRunEnd x u) (hb : st.runEndSpoil x = some (b, f)) :
    st.runEndTurn e x u = (u.dropBurst x b).placeSpoil x f (endSpoil e) := by
  have hctx : st.ctx x = u.ctx x := h.ctx.symm
  have hslu : st.sluSocket x = u.sluSocket x := h.slu.symm
  have hport : st.port x = u.port x := h.port.symm
  have leaves : st.runEndLeaves x = fun m => !asksBurst b m := funext fun m => by simp [runEndLeaves, hb]
  simp only [runEndTurn, runEndSlu, runEndPort, runEndCtx, leaves, hb, hctx, hslu, hport]
  rfl

/-- One socket at the notice (R176). -/
theorem endSealSocket_eq (h : st.SameForRunEnd x u) : u.endSealSocket e x = st.runEndTurn e x u := by
  cases hsp : st.runEndSpoil x with
  | none =>
    rw [h.turn_of_none hsp]
    have unchanged (hr : (u.ctx x).run ≠ .sealWait) : (u.modCtx x fun _ => st.runEndCtx x) = u := by
      rw [runEndCtx_other hsp (h.ctx ▸ hr), ← h.ctx]
      simp [modCtx, ctx]
    unfold endSealSocket
    split
    · rename_i hr
      rw [runEndCtx_sealWait (h.ctx ▸ hr), ← h.rosterCause, ← h.ctx]
      rfl
    · rename_i hr
      rw [unchanged (by simp [hr]), endSealing]
      split
      · rename_i b rec hq hrec
        refine if_neg fun hw => ?_
        have hu := h.runEndSpoil.trans hsp
        simp [Station.runEndSpoil, hr, hq, hrec, hw] at hu
      · rfl
    · exact (unchanged ‹_›).symm
  | some q =>
    obtain ⟨b, f⟩ := q
    obtain ⟨hr, hq, hw, rec, hrec, rfl⟩ := runEndSpoil_some (h.runEndSpoil.trans hsp)
    rw [h.turn_of_some hsp]
    simp [endSealSocket, endSealing, hr, hq, hw, hrec]

theorem each_endSealSocket (hs : st.SealBurstsApart) :
    st.each (endSealSocket e) = st.runEndTurn e 3 (st.runEndTurn e 2 (st.runEndTurn e 1 (st.runEndTurn e 0 st))) := by
  have same := SameForRunEnd.refl st
  unfold each
  rw [endSealSocket_eq (same 0), endSealSocket_eq ((same 1).turn hs (by decide)),
    endSealSocket_eq (((same 2).turn hs (by decide)).turn hs (by decide)),
    endSealSocket_eq ((((same 3).turn hs (by decide)).turn hs (by decide)).turn hs (by decide))]

/-- R176, the four turns together: what the notice leaves of the station. -/
theorem each_endSealSocket_rest (hs : st.SealBurstsApart) {t : Station} (ht : st.each (endSealSocket e) = t) : t = { st with
    stc := { st.stc with ctx := t.stc.ctx }
    slu := { st.slu with sockets := t.slu.sockets }
    lkc := { st.lkc with outbound := st.lkc.outbound ++ ([0, 1, 2, 3] : List Socket).filterMap fun x =>
      (st.runEndSpoil x).map fun (_, f) => endSpoilEntry e x f }
    mpc := { st.mpc with
      inbox := st.mpc.inbox.filter fun m => ([0, 1, 2, 3] : List Socket).all fun x => st.runEndLeaves x m
      ports := t.mpc.ports } } := by
  rw [each_endSealSocket hs] at ht
  subst ht
  have outbound : ∀ g : Socket → Option OutEntry, st.lkc.outbound ++ ([0, 1, 2, 3] : List Socket).filterMap g =
      st.lkc.outbound ++ (g 0).toList ++ (g 1).toList ++ (g 2).toList ++ (g 3).toList := fun g => by
    simp [List.filterMap_eq_flatMap_toList]
  have inbox : ∀ p : Socket → MpcMsg → Bool,
      (st.mpc.inbox.filter fun m => ([0, 1, 2, 3] : List Socket).all fun x => p x m) =
      (((st.mpc.inbox.filter (p 0)).filter (p 1)).filter (p 2)).filter (p 3) := fun p => by
    simp only [List.filter_filter]
    refine List.filter_congr fun m _ => ?_
    simp only [List.all_cons, List.all_nil, Bool.and_true]
    ac_rfl
  rw [outbound, inbox]
  rfl

theorem each_endSealSocket_socket (hs : st.SealBurstsApart) (x : Socket) {t : Station} (ht : st.each (endSealSocket e) = t) :
    t.ctx x = st.runEndCtx x ∧ t.sluSocket x = st.runEndSlu x ∧ t.port x = st.runEndPort x := by
  rw [each_endSealSocket hs] at ht
  subst ht
  match x with
  | 0 | 1 | 2 | 3 => exact ⟨rfl, rfl, rfl⟩

/-- R173: the cause of a number spoiled at the end of the run. -/
theorem endSpoil_eq (e : EndCause) : endSpoil e = if e = .aborted then .aborted else .fault := by cases e <;> rfl

end Station

open Station in
/-- Settles O55: the burst's end by the judgement of R172, the run-ended notice socket by socket. -/
theorem sealBurstEndsInDoneOrSpoil : Obligations.SealBurstEndsInDoneOrSpoil := by
  refine ⟨fun s x rest r f ha h hq hp => ?_, fun s rest e ha h hs => ?_, fun s h rest ha hr => ?_⟩
  · have spoils {c : SpoilCause} (hj : judgeSeal f r = some c) :
        exec (.sealBurstEnd x) s = .next (s.upd fun st => (st.sluLeft rest).placeSpoil x f c) :=
      next_of_run rfl ha ((sealBurstEnd_heard h).trans (takeSealEnd_spoils (st := s.st.sluLeft rest) hq hp hj))
    refine ⟨fun hl => spoils (judgeSeal_locked hl), fun hl hk => spoils (judgeSeal_failed hl hk),
      fun a b c lk p hk hrec hra hrb hrc => ?_⟩
    have judged := judgeSeal_ok (f := f) hk hrec hra hrb hrc
    refine ⟨fun hlk => spoils ?_, fun hlk hne => spoils ?_, fun hlk heq => ?_⟩
    · rw [judged, if_pos hlk]
    · simp [judged, hlk, hne]
    · exact next_of_run rfl ha
        ((sealBurstEnd_heard h).trans (takeSealEnd_seals (st := s.st.sluLeft rest) hq hp (by simp [judged, hlk, heq])))
  · intro asks notBegun spoils
    have hasks : asks = asksBurst := by
      funext b m
      cases m <;> rfl
    have hbegun : notBegun = (s.st.sluLeft rest).burstWaits := by
      funext x b
      simp only [notBegun, hasks, burstWaits_eq]
      rfl
    have hspoils : spoils = (s.st.sluLeft rest).runEndSpoil := by
      funext x
      simp only [spoils, hbegun, runEndSpoil]
      rfl
    clear_value spoils asks
    subst hspoils hasks
    have heard : s.st.sluRunEnded = (s.st.sluLeft rest).each (endSealSocket e) :=
      sluNotice_heard h rfl rfl fun m hm => by cases m <;> simp_all [SluMsg.isNotice]
    refine answers_of_run rfl ha heard ⟨?_, fun x => ?_⟩
    · have hrest := each_endSealSocket_rest (st := s.st.sluLeft rest) (e := e) hs rfl
      simp only [endSpoilEntry, endSpoil_eq] at hrest
      exact hrest
    · obtain ⟨hctx, hslu, hport⟩ := each_endSealSocket_socket (st := s.st.sluLeft rest) (e := e) hs x rfl
      refine ⟨fun hr => hctx.trans (runEndCtx_sealWait hr), fun b f hb => ⟨hctx.trans (runEndCtx_spoiled hb), ?_, ?_, ?_⟩,
        fun hn => ⟨?_, ?_, fun hr => hctx.trans (runEndCtx_other hn hr)⟩⟩
      · exact hslu.trans (runEndSlu_spoiled hb)
      · exact fun ⟨w, hw, hid⟩ => (hport.trans (runEndPort_spoiled hb)).trans (withdrawn_named hw hid)
      · exact fun hw => (hport.trans (runEndPort_spoiled hb)).trans (withdrawn_other hw)
      · exact hslu.trans (runEndSlu_other hn)
      · exact hport.trans (runEndPort_other hn)
  · refine next_of_run rfl ha ?_
    rw [Station.sluRunOpened, sluRunOpenedNotice, hr]
    rfl

end Sys2Proof.Machine
end

section
/-! PROOFS. Power-on reset (R179): what is held while it lasts, and the values every block has under it. -/

namespace Sys2Proof.Machine

/-! ### While it is held -/

/-- Power-on reset and its end apart, a command is an effect on the station. -/
theorem exec_eq_run {c : Instr} (hr : c ≠ .powerOnReset) (he : ∀ straps r l f, c ≠ .powerOnResetEnd straps r l f) :
    ∃ f, ∀ s, exec c s = s.run f := by
  cases c
  case powerOnReset => exact absurd rfl hr
  case powerOnResetEnd straps r l f => exact absurd rfl (he straps r l f)
  case detectEnd p r => exact ⟨fun st => st.atPosition p fun x => Station.detectEnd x r, fun _ => rfl⟩
  case insertionSenseAboveVopen p => exact ⟨fun st => st.atPosition p Station.senseAboveVopen, fun _ => rfl⟩
  case supervisionTimerRise p l => exact ⟨fun st => st.atPosition p fun x => Station.supervisionRise x l, fun _ => rfl⟩
  case replyReceived p bytes => exact ⟨fun st => st.atPosition p fun x => Station.replyReceived x bytes, fun _ => rfl⟩
  case strayByte p b => exact ⟨fun st => st.atPosition p fun x => Station.strayByte x b, fun _ => rfl⟩
  all_goals exact ⟨_, fun _ => rfl⟩

/-- Settles O3: every other command is an effect on the station, and no effect reaches it under power-on reset. -/
theorem nothingActsUnderPowerOnReset : Obligations.NothingActsUnderPowerOnReset := by
  intro c s hs hr he
  obtain ⟨f, hf⟩ := exec_eq_run hr he
  rw [hf, State.run_inReset hs]

/-! ### The values of one socket -/

namespace Station

@[simp] theorem ctx_reset (x : Socket) : Station.reset.ctx x = .reset := Quad.get_all4 _ x

@[simp] theorem gcuSocket_reset (x : Socket) : Station.reset.gcuSocket x = { mask := none, window := .none, samples := [] } :=
  Quad.get_all4 _ x

@[simp] theorem incSocket_reset (x : Socket) : Station.reset.incSocket x = .reset := Quad.get_all4 _ x

@[simp] theorem port_reset (x : Socket) : Station.reset.port x = .reset := Quad.get_all4 _ x

@[simp] theorem sluSocket_reset (x : Socket) : Station.reset.sluSocket x = .reset := Quad.get_all4 _ x

/-! ### The lines -/

/-- With no configuration each socket's lines are those of the position of its number (R111). -/
theorem socketAt_reset (p : Position) : Station.reset.socketAt p = some p := by
  match p with
  | 0 | 1 | 2 | 3 => rfl

/-- No socket is INSERTING or INSERTED, so every shunt is closed (R109). -/
theorem shuntDriver_reset (p : Position) : Station.reset.shuntDriver p = false := by
  have hstate : (Station.reset.inc.sockets.get p).state = .bypassed := by simp [Station.reset, Inc.reset, IncSocket.reset]
  simp [shuntDriver, socketAt_reset, hstate, shuntOpenIn]

/-- No socket is enabled, so every lamp is dark (R194). -/
theorem lampOutput_reset (p : Position) : Station.reset.lampOutput p = false := by
  have hoff : Station.reset.lamp p = .off := rfl
  simp [lampOutput, socketAt_reset, hoff, litIn]

/-- No burst runs, so every MTX is at the stop level (R149). -/
theorem meterTx_reset (p : Position) : Station.reset.meterTx p = none := by
  rw [meterTx_socket (socketAt_reset p), port_reset]
  rfl

/-- No read attempt is in progress, so SCL and SDA are released (R182). -/
theorem storeLines_reset (answer : List Byte) : Station.reset.storeLines answer = none :=
  storeLines_released (by simp [Station.reset, Cfl.reset]) answer

end Station

/-! ### Every block -/

open Station in
/-- Settles O4: the state is State.reset but for the commands that wait, whose values are read off block by block. -/
theorem powerOnResetGivesPowerOnValues : Obligations.PowerOnResetGivesPowerOnValues := by
  intro s
  refine ⟨_, rfl, rfl, rfl,
    -- the Link Controller (R61)
    rfl, rfl, rfl, rfl, rfl, rfl, rfl, rfl, rfl,
    -- the Bench Mirror (R1)
    rfl, rfl, rfl, rfl, rfl, rfl, rfl, rfl, rfl, rfl, rfl, rfl, rfl, rfl, rfl, rfl,
    -- the reference count (R108) and the Report Unit (R193)
    rfl, rfl, rfl, rfl, rfl, rfl,
    -- RDY and the round-start mark
    rfl, rfl,
    fun x => ?_, fun p => ⟨shuntDriver_reset p, lampOutput_reset p, meterTx_reset p⟩, storeLines_reset⟩
  simp [State.reset, RunCtx.reset, IncSocket.reset, Port.reset, SluSocket.reset]

/-! ### The laws -/

theorem Lkc.inboundSound_reset : Lkc.reset.InboundSound := by simp [InboundSound, reset, Station.frameFill]

theorem Lkc.outboundSound_reset : Lkc.reset.OutboundSound := by simp [OutboundSound, reset]

theorem Port.sound_reset : Port.reset.Sound := fun _ => rfl

theorem Station.sealBurstsApart_reset : Station.reset.SealBurstsApart := by
  intro x b hb
  simp [SluSocket.reset] at hb

theorem Station.countersSound_reset : Station.reset.CountersSound := by
  simp [CountersSound, Station.reset, Lkc.reset, Rpu.reset, Inc.reset, IncSocket.reset]

/-- Settles O60, law by law. -/
theorem lawsHoldAtReset : Obligations.LawsHoldAtReset := by
  refine ⟨Mirror.sound_reset, Lkc.inboundSound_reset, Lkc.outboundSound_reset, fun x => ?_, Station.sealBurstsApart_reset,
    fun x => ?_, Station.countersSound_reset, Mirror.notDue_of_phase (by simp [State.reset, Station.reset, Mirror.reset])⟩
  · rw [State.reset, Station.port_reset]
    exact Port.sound_reset
  · rw [State.reset, Station.incSocket_reset]
    exact IncSocket.sound_reset

end Sys2Proof.Machine
end

section
/-! PROOFS. Start-up (R179 to R190): the read attempts, the judgement of the image on its bytes, and what READING ends with. -/

namespace Sys2Proof.Machine

namespace Station

variable {st : Station} {answer : Option (List Byte)} {status : ConfigStatus} {again : Bool} {sec : StationSection}
  {ps : Quad (Option Profile)}

/-! ### What RUNNING begins with (R181) -/

@[simp] theorem enterRunning_cfl (st : Station) (l : Loaded) : (st.enterRunning l).cfl = { st.cfl with
    stage := .running, retry := none, status := some l.status, station := some l.station, profiles := l.profiles,
    slotA := l.slotA, slotB := l.slotB } := rfl

@[simp] theorem cruSocket_enterRunning (st : Station) (l : Loaded) (x : Socket) :
    (st.enterRunning l).cruSocket x = { table := freshTable (l.profiles.get x), request := .none } :=
  Quad.get_tabulate _ x

/-- The read attempts are over, so SCL and SDA are released (R182). -/
theorem storeLines_enterRunning (st : Station) (l : Loaded) (bytes : List Byte) :
    (st.enterRunning l).storeLines bytes = none :=
  storeLines_released (by simp) bytes

/-! ### The end of an attempt (R182, R183) -/

/-- The attempt in progress counted. -/
def attemptCounted (st : Station) : Station := { st with cfl := { st.cfl with attempts := st.cfl.attempts + 1 } }

theorem attemptEnd_repeats (hs : st.cfl.stage = .reading) (hj : judgeImage answer = .fails status true)
    (ha : st.cfl.attempts + 1 < 3) : st.attemptEnd answer = { st with
      cfl := { st.cfl with stage := .retryWait, attempts := st.cfl.attempts + 1, retry := some 10 } } := by
  simp [attemptEnd, hs, hj, ha, Config.maxAttempts, Config.retryMs]

theorem attemptEnd_gives_up (hs : st.cfl.stage = .reading) (hj : judgeImage answer = .fails status again)
    (ha : again = false ∨ 3 ≤ st.cfl.attempts + 1) :
    st.attemptEnd answer = st.attemptCounted.enterRunning (unusableImage status) := by
  have hlast : ¬ (again = true ∧ st.cfl.attempts + 1 < Config.maxAttempts) := by
    rintro ⟨h, hlt⟩
    rcases ha with h' | h'
    · simp [h'] at h
    · exact absurd hlt (Nat.not_lt.mpr h')
  simp [attemptEnd, hs, hj, hlast, attemptCounted]

theorem attemptEnd_passes {bytes : List Byte} (hs : st.cfl.stage = .reading) (hj : judgeImage (some bytes) = .passes sec ps) :
    st.attemptEnd (some bytes) = st.attemptCounted.enterRunning (usableImage bytes sec ps) := by
  simp [attemptEnd, hs, hj, attemptCounted]

/-! ### The other events of start-up (R179, R180, R182) -/

theorem powerOnResetEnd_inReset (hs : st.cfl.stage = .inReset) (straps : BitVec 5) (rdy lrst flt : Bool) :
    st.powerOnResetEnd straps rdy lrst flt = { st with
      cfl := { st.cfl with stage := .reading, node := ⟨straps.toNat, straps.isLt⟩ }
      gcu := { st.gcu with rdy := rdy }
      lkc := { st.lkc with lrst := lrst, flt := flt } } :=
  if_pos hs

theorem readRetry_retryWait (hs : st.cfl.stage = .retryWait) :
    st.readRetry = { st with cfl := { st.cfl with stage := .reading, retry := none } } :=
  if_pos hs

end Station

/-! ### The judgement of the image (R183) -/

section Judgement

variable {b : List Byte}

theorem judgeImage_unmarked (h : ¬ ImageMarked b) : judgeImage (some b) = .fails .badImage true := if_pos h

theorem judgeImage_notLong (hm : ImageMarked b) (h : ¬ ImageLong b) : judgeImage (some b) = .fails .badImage true := by
  rw [judgeImage_marked hm, if_pos h]

theorem judgeImage_notWhole (hm : ImageMarked b) (hl : ImageLong b) (h : ¬ ImageWhole b) :
    judgeImage (some b) = .fails .badImage true := by
  rw [judgeImage_marked hm, if_neg (not_not_intro hl), if_pos h]

theorem judgeImage_stationOutside (hm : ImageMarked b) (hl : ImageLong b) (hw : ImageWhole b) (h : ¬ StationInRange b) :
    judgeImage (some b) = .fails .badImage false := by
  rw [judgeImage_marked hm, if_neg (not_not_intro hl), if_neg (not_not_intro hw)]
  simp only [readStation_outside h]

/-- Check 6, once the station section is read. -/
theorem judgeImage_stationRead (hm : ImageMarked b) (hl : ImageLong b) (hw : ImageWhole b) {sec : StationSection}
    (hsec : readStation b 6 = some sec) :
    (readProfiles b sec.enable = none → judgeImage (some b) = .fails .badImage false) ∧
      ∀ ps, readProfiles b sec.enable = some ps → judgeImage (some b) = .passes sec ps := by
  rw [judgeImage_marked hm, if_neg (not_not_intro hl), if_neg (not_not_intro hw)]
  refine ⟨fun h => ?_, fun ps h => ?_⟩ <;> simp only [hsec, h]

theorem judgeImage_profileOutside (hm : ImageMarked b) (hl : ImageLong b) (hw : ImageWhole b) (hs : StationInRange b)
    {x : Socket} (he : (byteAt b 6).getLsbD x.val = true) (h : ¬ ProfileInRange b x) :
    judgeImage (some b) = .fails .badImage false := by
  obtain ⟨sec, hsec, hfrom, -⟩ := readStation_inRange hs
  exact (judgeImage_stationRead hm hl hw hsec).1 (readProfiles_outside ((hfrom x).1.trans he) h)

/-- An image that passes every check is held as stored (R184, R185). -/
theorem judgeImage_passes (hm : ImageMarked b) (hl : ImageLong b) (hw : ImageWhole b) (hs : StationInRange b)
    (hp : ∀ x : Socket, (byteAt b 6).getLsbD x.val = true → ProfileInRange b x) :
    ∃ sec ps, judgeImage (some b) = .passes sec ps ∧ sec.ReadFrom b ∧
      ∀ x : Socket, ((byteAt b 6).getLsbD x.val = true → ∃ p, ps.get x = some p ∧ p.ReadFrom b x) ∧
        ((byteAt b 6).getLsbD x.val = false → ps.get x = none) := by
  obtain ⟨sec, hsec, hfrom⟩ := readStation_inRange hs
  have henable (x : Socket) : sec.enable.get x = (byteAt b 6).getLsbD x.val := (hfrom.1 x).1
  obtain ⟨ps, hps, hheld⟩ := readProfiles_inRange (b := b) (en := sec.enable) fun x he => hp x (henable x ▸ he)
  exact ⟨sec, ps, (judgeImage_stationRead hm hl hw hsec).2 ps hps, hfrom, fun x => henable x ▸ hheld x⟩

end Judgement

/-! ### The transfer of an attempt (R182) -/

/-- An attempt reads as many bytes as the header declares, and the header's six at least (logs 36, 42). -/
theorem attemptBytes_header (b0 b1 b2 b3 : Byte) (bytes : List Byte) :
    attemptBytes (b0 :: b1 :: b2 :: b3 :: bytes) = max 6 (b2.toNat * 256 + b3.toNat) := rfl

open Station in
/-- Settles O5: the end of power-on reset, the attempt that is repeated, its timer, and the transfer by the length declared. -/
theorem strapsAreSampledAndStoreIsRead : Obligations.StrapsAreSampledAndStoreIsRead := by
  refine ⟨fun s straps rdy lrst flt hs => ?_, fun s answer status hs ha hj => ?_, fun s hs ha => ?_, fun s hs => ?_,
    fun st b0 b1 b2 b3 bytes => ⟨fun hs hlen => ?_, fun hs hlen => ?_, fun hs => storeLines_released hs _⟩⟩
  · refine ⟨{ s with st := s.st.powerOnResetEnd straps rdy lrst flt }, rfl, ?_⟩
    rw [powerOnResetEnd_inReset hs]
    exact ⟨rfl, rfl, rfl⟩
  · exact next_of_run rfl (by simp [State.Awake, hs]) (attemptEnd_repeats hs hj ha)
  · exact next_of_run rfl (by simp [State.Awake, hs]) (attemptEnd_repeats hs (answer := none) rfl ha)
  · exact next_of_run rfl (by simp [State.Awake, hs]) (readRetry_retryWait hs)
  · rw [storeLines_reading hs, attemptBytes_header, Nat.max_eq_right hlen.le]
    rfl
  · rw [storeLines_reading hs, attemptBytes_header, Nat.max_eq_left hlen]
    rfl

/-! ### What a station holds once it runs -/

theorem identityRemap_get (x : Socket) : identityRemap.get x = x := by
  match x with
  | 0 | 1 | 2 | 3 => rfl

/-- R189: what the unusable image gives each socket. -/
theorem Station.noSocket_unusable (st : Station) (status : ConfigStatus) (x : Socket) :
    let t := st.enterRunning (unusableImage status)
    t.enabled x = false ∧ t.remap.get x = x ∧ t.profile x = none ∧ (t.cruSocket x).table = none := by
  have hprofile : (unusableImage status).profiles.get x = none := Quad.get_all4 _ x
  refine ⟨Quad.get_all4 _ x, identityRemap_get x, hprofile, ?_⟩
  rw [cruSocket_enterRunning, hprofile]
  rfl

open Station in
/-- Settles O6: the last attempt fails however it ends, and each check of R183 that fails an image decides in its turn. -/
theorem failedImageLeavesNoSocket : Obligations.FailedImageLeavesNoSocket := by
  refine ⟨fun s hs => ?_, rfl, fun b => ⟨judgeImage_unmarked, judgeImage_notLong, judgeImage_notWhole, judgeImage_stationOutside,
    fun hm hl hw hi ⟨_, he, hp⟩ => judgeImage_profileOutside hm hl hw hi he hp⟩⟩
  intro leaves
  have gives_up {c : Instr} {f : Station → Station} {status : ConfigStatus} (hc : exec c s = s.run f)
      (hf : f s.st = s.st.attemptCounted.enterRunning (unusableImage status)) : leaves c status :=
    answers_of_run hc (by simp [State.Awake, hs]) hf
      ⟨rfl, rfl, rfl, rfl, noSocket_unusable _ status, rfl, rfl, storeLines_enterRunning _ _⟩
  exact ⟨fun answer status again hj ha => gives_up rfl (attemptEnd_gives_up hs hj ha),
    fun ha => gives_up rfl (attemptEnd_gives_up (answer := none) hs rfl (.inr ha))⟩

/-! ### A usable image (R184, R186, R188, R190) -/

section Usable

variable {bytes : List Byte} {sec : StationSection} {ps : Quad (Option Profile)}

theorem duplicateRemap_eq (r : Quad Position) : duplicateRemap r = decide (¬ r.toList.Nodup) := by
  simp [duplicateRemap]

/-- The station section is held as stored, but for a remap that names one position twice. -/
theorem station_usableImage : (usableImage bytes sec ps).station =
    { sec with remap := if sec.remap.toList.Nodup then sec.remap else identityRemap } := by
  by_cases h : sec.remap.toList.Nodup <;> simp [usableImage, duplicateRemap, h]

theorem status_usableImage : (usableImage bytes sec ps).status =
    .conditions (decide (¬ sec.remap.toList.Nodup)) (readSlot ps bytes 223).isNone (readSlot ps bytes 828).isNone := by
  rw [← duplicateRemap_eq]
  rfl

/-- R187, R190: the fingerprint of a usable slot, 0 for another. -/
theorem reportedFingerprint_eq (slot : Option RunTable) :
    (∀ tb, slot = some tb → reportedFingerprint slot = tb.fingerprint) ∧ (slot = none → reportedFingerprint slot = 0) := by
  refine ⟨?_, ?_⟩
  · rintro tb rfl
    rfl
  · rintro rfl
    rfl

/-- R190: the ANNOUNCE of a usable image. -/
theorem announceBody_usableImage : announceBody (usableImage bytes sec ps) =
    .announce (usableImage bytes sec ps).status.code (reportedFingerprint (readSlot ps bytes 223))
      (reportedFingerprint (readSlot ps bytes 828)) (maskByte sec.enable) := by
  rw [announceBody, station_usableImage]
  rfl

end Usable

/-- What the blocks read of the section held (R111, R112, R122, R125, R130, R137, R140). -/
theorem Station.reads_of_station {st : Station} {sec : StationSection} (h : st.cfl.station = some sec) :
    st.remap = sec.remap ∧ (∀ x, st.enabled x = sec.enable.get x ∧ st.shedRank x = sec.shedRank.get x) ∧
      st.supLimit .overburden = Config.tOvb sec.tOvb ∧ st.supLimit .openCircuit = Config.tOpen sec.tOpen ∧
      st.insertionMs = Config.tIns sec.tIns ∧ st.verifyWrites = sec.verifyWrites := by
  simp [remap, enabled, shedRank, supLimit, insertionMs, verifyWrites, h]

open Station in
/-- Settles O7: the fields of an image that passes, the slots, and what the station holds of them once it runs. -/
theorem usableImageIsHeld : Obligations.UsableImageIsHeld := by
  refine ⟨fun b => judgeImage_passes, fun ps b o => ⟨readSlot_inRange, readSlot_outside⟩, fun s bytes sec ps hs hj => ?_⟩
  refine answers_of_run rfl (by simp [State.Awake, hs]) (attemptEnd_passes hs hj) ?_
  have hstation : (s.st.attemptCounted.enterRunning (usableImage bytes sec ps)).cfl.station = some _ :=
    congrArg some station_usableImage
  obtain ⟨hremap, hsockets, hovb, hopen, hins, hverify⟩ := reads_of_station hstation
  obtain ⟨ha, hnoA⟩ := reportedFingerprint_eq (readSlot ps bytes 223)
  obtain ⟨hb, hnoB⟩ := reportedFingerprint_eq (readSlot ps bytes 828)
  refine ⟨rfl, rfl, rfl, rfl, rfl, rfl, fun hn => hremap.trans (if_pos hn), fun hn x => ?_,
    congrArg some status_usableImage, fun x => ⟨(hsockets x).1, (hsockets x).2, ?_⟩, hovb, hopen, hins, hverify,
    storeLines_enterRunning _ _, _, _, _, ?_, rfl, ha, hnoA, hb, hnoB⟩
  · rw [hremap, if_neg hn, identityRemap_get]
  · rw [cruSocket_enterRunning]
    rfl
  · rw [enterRunning_eq, announceBody_usableImage]
    rfl

end Sys2Proof.Machine
end

section
/-! PROOFS. The Report Unit (R191 to R195): the answer to a query notice, the contents of a STATE, the lamps. -/

namespace Sys2Proof.Machine

namespace Station

variable {st : Station} {x : Socket} {e : OutEntry}

/-! ### The query notice (R191) -/

theorem stateEntry_none (h : ∀ e ∈ st.lkc.outbound, isState e.body = false) : st.stateEntry = none :=
  List.find?_eq_none.mpr fun e he => by simp [h e he]

/-- The STATE entry is the first STATE of the queue. -/
theorem stateEntry_first {pre post : List OutEntry} (hq : st.lkc.outbound = pre ++ e :: post)
    (hpre : ∀ d ∈ pre, isState d.body = false) (he : isState e.body = true) : st.stateEntry = some e :=
  List.find?_eq_some_iff_append.mpr ⟨he, pre, post, hq, fun d hd => by simp [hpre d hd]⟩

/-- R192, R54: a STATE carries run number 0 and goes to the tail, since it is ordinary. -/
theorem placeState_eq : st.placeState =
    { st with lkc := { st.lkc with outbound := st.lkc.outbound ++ [newEntry0 (.state st.stateReport)] } } :=
  placeFrame_ordinary st 0 urgentBody_state

theorem answerQuery_places (he : st.stateEntry = none) (hp : st.rpu.queryPending = false) :
    st.answerQuery = st.placeState := by
  simp [answerQuery, he, hp]

/-- With a STATE in the queue nothing is placed: the query is merged with one that waits, and held behind one on the wire. -/
theorem answerQuery_merges (he : st.stateEntry = some e) : st.answerQuery = { st with rpu := { st.rpu with
    queryPending := if e.place = .onWire then true else st.rpu.queryPending } } := by
  by_cases hw : e.place = .onWire <;> simp [answerQuery, he, hw]

/-- One query notice taken, `n` left. -/
def queryTaken (st : Station) (n : Nat) : Station := { st with rpu := { st.rpu with queries := n } }

theorem queryNotice_taken {n : Nat} (hn : st.rpu.queries = n + 1) : st.queryNotice = (st.queryTaken n).answerQuery := by
  simp [queryNotice, hn, queryTaken]

theorem queryNotice_places {n : Nat} (hn : st.rpu.queries = n + 1) (he : st.stateEntry = none)
    (hp : st.rpu.queryPending = false) : st.queryNotice = (st.queryTaken n).placeState :=
  (queryNotice_taken hn).trans (answerQuery_places he hp)

theorem queryNotice_merges {n : Nat} (hn : st.rpu.queries = n + 1) (he : st.stateEntry = some e) :
    st.queryNotice = { st with rpu := { st.rpu with
      queries := n, queryPending := if e.place = .onWire then true else st.rpu.queryPending } } :=
  (queryNotice_taken hn).trans (answerQuery_merges (st := st.queryTaken n) he)

/-! ### The contents of a STATE (R192) -/

theorem stateReport_socket (st : Station) (x : Socket) : st.stateReport.sockets.get x = st.socketReport x :=
  Quad.get_tabulate _ x

theorem stateReport_status {c : ConfigStatus} (h : st.cfl.status = some c) : st.stateReport.status = c.code := by
  simp [stateReport, h]

theorem stateReport_step {k : Nat} (h : st.bmr.step = some k) : st.stateReport.step = BitVec.ofNat 8 k := by
  simp [stateReport, h, codeOf]

theorem stateReport_noStep (h : st.bmr.step = none) : st.stateReport.step = 0xFF := by
  simp [stateReport, h]

theorem socketReport_outCause {c : OutCause} (hr : (st.ctx x).run = .out) (hc : (st.ctx x).outCause = some c) :
    (st.socketReport x).cause = c.code := by
  simp [socketReport, hr, hc]

theorem socketReport_joinFault (hr : (st.ctx x).run ≠ .out) :
    (st.socketReport x).cause = (st.incSocket x).joinFault.code := by
  simp [socketReport, hr]

theorem socketReport_detect {p : ProbeResult} (hp : (st.incSocket x).probe = some p) :
    (st.socketReport x).detect = p.detect.code := by
  simp [socketReport, hp]

theorem socketReport_noProbe (hp : (st.incSocket x).probe = none) :
    (st.socketReport x).detect = DetectClass.none.code := by
  simp [socketReport, hp]

/-! ### The lamps (R194, R195) -/

/-- Check 3 of R194. -/
def ShowsFault (st : Station) (x : Socket) : Prop :=
  ((st.ctx x).run = .out ∧ (st.ctx x).outCause ≠ some .aborted) ∨
    ((st.ctx x).run = .idle ∧ (st.incSocket x).joinFault ≠ .none ∧ (st.incSocket x).joinFault ≠ .disabled)

theorem shuntOpenIn_iff (i : Insertion) : shuntOpenIn i = true ↔ i = .inserting ∨ i = .inserted := by
  simp [shuntOpenIn]

theorem lamp_disabled (he : st.enabled x = false) : st.lamp x = .off := by
  simp [lamp, he]

theorem lamp_sealed (he : st.enabled x = true) (hr : (st.ctx x).run = .sealed) : st.lamp x = .slowFlash := by
  simp only [ctx] at hr
  simp [lamp, he, hr]

section Unsealed

variable (he : st.enabled x = true) (hr : (st.ctx x).run ≠ .sealed)
include he hr

theorem lamp_fault (hf : st.ShowsFault x) : st.lamp x = .fastFlash := by
  simp only [lamp, he]
  exact (if_neg hr).trans (if_pos hf)

/-- Checks 4 to 6 of R194, where check 3 does not hold. -/
theorem lamp_noFault (hf : ¬ st.ShowsFault x) : st.lamp x =
    if (st.incSocket x).state = .inserting ∨ (st.incSocket x).state = .inserted then .steady
    else if (st.ctx x).run = .done ∨ (st.ctx x).run.inSealing = true then .steady else .off := by
  simp only [← shuntOpenIn_iff, lamp, he]
  exact (if_neg hr).trans (if_neg hf)

end Unsealed

/-- The lit part of each pattern: the first four of the eight phases, and every second one. -/
theorem litIn_patterns (n : Fin 8) : litIn n .off = false ∧ litIn n .steady = true ∧
    (litIn n .slowFlash = true ↔ n.val < 4) ∧ (litIn n .fastFlash = true ↔ n.val % 2 = 0) :=
  ⟨rfl, rfl, decide_eq_true_iff, decide_eq_true_iff⟩

theorem lampOutput_socket {p : Position} (hp : st.socketAt p = some x) :
    st.lampOutput p = litIn st.rpu.lampPhase (st.lamp x) := by
  simp [lampOutput, hp]

end Station

open Station in
/-- Settles O56: the rows of R191, a STATE field by field, the lamp timer, and the checks of R194 in order. -/
theorem queriesAndLamps : Obligations.QueriesAndLamps := by
  refine ⟨fun s n ha hn => ⟨fun hq hp => ?places, fun pre e post hq hpre he => ?merges⟩,
    fun s ha => State.run_awake ha lampTimer, fun st => ?contents, litIn_patterns, fun st x => ?lamps⟩
  case places => exact next_of_run rfl ha ((queryNotice_places hn (stateEntry_none hq) hp).trans placeState_eq)
  case merges => exact next_of_run rfl ha (queryNotice_merges hn (stateEntry_first hq hpre he))
  case contents =>
    refine ⟨fun _ => stateReport_status, rfl, rfl, rfl, rfl, fun _ => stateReport_step, stateReport_noStep, fun x => ?_⟩
    simp only [stateReport_socket]
    exact ⟨rfl, rfl, fun _ => socketReport_outCause, socketReport_joinFault, fun _ => socketReport_detect,
      socketReport_noProbe, rfl, rfl, rfl⟩
  case lamps =>
    refine ⟨lamp_disabled, lamp_sealed, fun he hr => ⟨lamp_fault he hr, fun hf ho => ?_, fun hf ho hd => ?_,
      fun hf ho hd => ?_⟩, fun _ => lampOutput_socket⟩
    · rw [lamp_noFault he hr hf, if_pos ho]
    · rw [lamp_noFault he hr hf, if_neg ho, if_pos hd]
    · rw [lamp_noFault he hr hf, if_neg ho, if_neg hd]

end Sys2Proof.Machine
end

section
/-! PROOFS. Formats (R196, R197): a frame read back from its bytes. -/

namespace Sys2Proof.Machine

/-- Settles O57: the declared length and the check code that `encode` writes pass the checks of R46 (`readFrame_whole`),
and each kind's body is read field by field (`readBody_bytes`); `readFrame_encode` puts the two together. -/
theorem frameBytesReadBack : Obligations.FrameBytesReadBack := readFrame_encode

end Sys2Proof.Machine
end

section
/-! PROOFS. The queue of commands (chapter 0): what a step takes from it, and that no command touches it. -/

namespace Sys2Proof.Machine

/-! ### A step -/

/-- With a command in front, a step runs it on the state with the rest of the queue. -/
theorem step_front (c : Instr) (cs : List Instr) (s : State) :
    step { s with pending := c :: cs } = exec c { s with pending := cs } := rfl

/-- With no command, a step is a millisecond. -/
theorem step_noCommand {s : State} (h : s.pending = []) : step s = s.run Station.tick := by
  simp only [step, h, idleStep]

/-- Settles O1: `step_front` with the queue of the state as the rest, and `step_noCommand` once power-on reset has ended. -/
theorem stepRunsFrontCommand : Obligations.StepRunsFrontCommand :=
  ⟨fun c s => step_front c s.pending s, fun _ hq ha => (step_noCommand hq).trans (State.run_awake ha Station.tick)⟩

/-! ### A command -/

/-- An effect on the station answers a next state and leaves the queue, under power-on reset too. -/
theorem State.run_keeps_queue (s : State) (f : Station → Station) : ∃ t, s.run f = .next t ∧ t.pending = s.pending :=
  ⟨_, rfl, rfl⟩

/-- Settles O2: power-on reset and its end write the station alone, and every other command is an effect on the station
(`exec_eq_run`). -/
theorem commandsAnswerAndKeepQueue : Obligations.CommandsAnswerAndKeepQueue := by
  intro c s
  by_cases hr : c = .powerOnReset
  · subst hr
    exact ⟨{ State.reset with pending := s.pending }, rfl, rfl⟩
  by_cases he : ∃ straps r l f, c = .powerOnResetEnd straps r l f
  · obtain ⟨straps, r, l, f, rfl⟩ := he
    exact ⟨{ s with st := s.st.powerOnResetEnd straps r l f }, rfl, rfl⟩
  · obtain ⟨f, hf⟩ := exec_eq_run hr fun straps r l f h => he ⟨straps, r, l, f, h⟩
    rw [Answers, hf]
    exact s.run_keeps_queue f

end Sys2Proof.Machine
end
